-- ==== Sys2Proof/Word.lean ====
section
/-! DEFINITION. The word types of the CtrCipher. Every value is an unsigned integer of a stated
width, bit 0 the least significant (spec 00_scope R6); no operation is signed (R7). -/

namespace Sys2Proof

/-- One byte of the bus-master space (20_memory R56). -/
abbrev Byte := BitVec 8

/-- A register of the window, a bus address, or a command word: REG_BITS = ADDR_BITS = LEN_BITS = 32
(00_scope R5). -/
abbrev Word := BitVec 32

/-- A key, an IV, a counter block or a keystream block: BLOCK_BYTES = 16 (00_scope R5). -/
abbrev Quad := BitVec 128

/-- The 9-bit access descriptor `A = W ++ OFFSET[7:0]` (30_encoding R70). -/
abbrev Descriptor := BitVec 9

end Sys2Proof
end

