-- ==== Sys2Proof/Config.lean ====
section
/-! DEFINITION. What the platform supplies as a function, and the free values. Each is an opaque
constant without a body: no proof can see a value of it, so what is proved holds for every one.
The parameters of 00_scope R5 that are plain data (MMIO_BASE, W8_OVERFLOW_POLICY, MemAdmit,
N_INSTANCES) are fields of State instead (log 4). -/

namespace Sys2Proof

/-- The AES port `BlockEncrypt(key, block)` (00_scope R3, D32): a total function of its two operands.
Log 5. -/
opaque Config.blockEncrypt : Quad → Quad → Quad

/-- Byte `j` of the draw number `n` of the random port (00_scope R4, 40_init R103, D28): any byte.
Log 6. -/
opaque Config.randomByte (n j : Nat) : Byte

/-- STATUS.INIT as read while BUSY = 1 (70_reset_and_hazards R207): any value. Log 7. -/
opaque Config.busyInit (n : Nat) : BitVec 1

/-- STATUS.IVLEN as read while BUSY = 1 (70_reset_and_hazards R207): any value. Log 7. -/
opaque Config.busyIvlen (n : Nat) : BitVec 5

/-- STATUS.ERR as read while BUSY = 1 (70_reset_and_hazards R207): any value. Log 7. -/
opaque Config.busyErr (n : Nat) : BitVec 4

/-- BLKOFF[3:0] as read while BUSY = 1 (70_reset_and_hazards R207): any value. Log 7. -/
opaque Config.busyBlkoff (n : Nat) : BitVec 4

/-- An IV_OUT register as read while BUSY = 1 (70_reset_and_hazards R207): any value. Log 7. -/
opaque Config.busyIvOut (n : Nat) : Word

/-- What a destination byte holds after a write that got a bus error (42_process R141): any byte. Log 8. -/
opaque Config.writeErrorByte (n : Nat) : Byte

/-- Whether the next byte's write is in flight when reset comes (70_reset_and_hazards R201). Log 9. -/
opaque Config.writeInFlight (n : Nat) : Bool

/-- What a byte holds whose write was in flight at reset (70_reset_and_hazards R201): any byte. Log 9. -/
opaque Config.resetByte (n : Nat) : Byte

/-- Which admitted value the engine's read of a raced source byte returns (20_memory R63). Log 10. -/
opaque Config.engineReadChoice (n : Nat) : Nat

/-- Whether a raced destination byte keeps the host's write (20_memory R63). Log 10. -/
opaque Config.engineWriteLost (n : Nat) : Bool

/-- Which write is final where the host writes a byte that the running command has stored (20_memory R63).
Log 10. -/
opaque Config.hostWriteChoice (n : Nat) : Nat

/-- Which admitted value the host's read of a raced destination byte returns (20_memory R63). Log 10. -/
opaque Config.hostReadChoice (n : Nat) : Nat

end Sys2Proof
end

