-- ==== Sys2Proof/Syntax.lean ====
section
/-! DEFINITION. The abstract syntax: one constructor per row of spec/opcode_table.json. The first
eight are words of the CMD register (30_encoding R72, R78, R84), which the engine executes; the
others are window accesses (30_encoding R82), which the host makes. -/

namespace Sys2Proof

/-- An instruction: a command of the engine, or one host access of the window. -/
inductive Instr where
  /-- INIT_IV with KLEN and IVLEN (40_init R102). -/
  | initIv (klen ivlen : BitVec 5)
  /-- INIT_RAND with KLEN and IVLEN (40_init R103). -/
  | initRand (klen ivlen : BitVec 5)
  /-- SET_IV with IVLEN (40_init R104). -/
  | setIv (ivlen : BitVec 5)
  /-- PROCESS (42_process R132). -/
  | process
  /-- ENCRYPT, another name of PROCESS (30_encoding R84, 42_process R140). -/
  | encrypt
  /-- DECRYPT, another name of PROCESS (30_encoding R84, 42_process R140). -/
  | decrypt
  /-- UPDATE_IV (43_ivadvance_access R152). -/
  | updateIv
  /-- Every other command word (30_encoding R75 to R78). -/
  | illegalCmd (w : Word)
  /-- Write of CMD (70_reset_and_hazards R204, R205). -/
  | wrCmd (data : Word)
  /-- Read of STATUS (10_state R33). -/
  | rdStatus
  /-- Write of STATUS (10_state R33). -/
  | wrStatus (data : Word)
  /-- Read of BLKOFF (43_ivadvance_access R155). -/
  | rdBlkoff
  /-- Read of IV_OUT `k` (43_ivadvance_access R154). -/
  | rdIvOut (k : BitVec 2)
  /-- Write of SRC (10_state R35). -/
  | wrSrc (data : Word)
  /-- Write of DST (10_state R35). -/
  | wrDst (data : Word)
  /-- Write of LEN (10_state R35). -/
  | wrLen (data : Word)
  /-- Read of SRC (10_state R35). -/
  | rdSrc
  /-- Read of DST (10_state R35). -/
  | rdDst
  /-- Read of LEN (10_state R35). -/
  | rdLen
  /-- Write of KEY_IN `k` (10_state R36). -/
  | wrKeyIn (k : BitVec 2) (data : Word)
  /-- Write of IV_IN `k` (10_state R37). -/
  | wrIvIn (k : BitVec 2) (data : Word)
  /-- Read of IV_IN `k` (10_state R37). -/
  | rdIvIn (k : BitVec 2)
  /-- Every other access descriptor (30_encoding R82, 10_state R39). -/
  | mmioOther (a : Descriptor) (data : Word)
deriving DecidableEq, Repr

/-- An instruction's words, in one of the two formats of 30_encoding R70. A read carries the data 0. -/
inductive Enc where
  /-- A 32-bit command word. -/
  | cmd (w : Word)
  /-- An access descriptor with its 32-bit write data. -/
  | mmio (a : Descriptor) (data : Word)
deriving DecidableEq, Repr

end Sys2Proof
end

