-- ==== Sys2Proof/WellFormed.lean ====
section
/-! DEFINITION. Which instructions are well formed: the fallback rows stand only for words that no
other row matches, and a read carries no data. -/

namespace Sys2Proof

/-- The command word is one of the five commands: RSV = 0, OP not reserved, and no field set that
the command does not use (30_encoding R75, R76, R77). -/
def legalCmdWord (w : Word) : Bool :=
  w.extractLsb' 14 18 == 0 &&
    (match (w.extractLsb' 0 4).toNat with
      | 1 => true
      | 2 => true
      | 3 => w.extractLsb' 4 5 == 0
      | 4 => w.extractLsb' 4 5 == 0 && w.extractLsb' 9 5 == 0
      | 5 => w.extractLsb' 4 5 == 0 && w.extractLsb' 9 5 == 0
      | _ => false)

/-- The descriptors 30_encoding R82 names with the full mask 0x1FF. -/
def exactDescriptors : List Descriptor :=
  [0x100, 0x004, 0x104, 0x008, 0x110, 0x114, 0x118, 0x010, 0x014, 0x018]

/-- The descriptors 30_encoding R82 names with the mask 0x1F3, whose bits 3:2 are the index. -/
def indexedDescriptors : List Descriptor := [0x040, 0x120, 0x130, 0x030]

/-- The descriptor is a row of 30_encoding R82 other than the fallback. -/
def namedDescriptor (a : Descriptor) : Bool :=
  exactDescriptors.contains a || indexedDescriptors.contains (a &&& 0x1F3)

/-- A read's data field is 0: a read carries no data (30_encoding R70). -/
def readDataZero (a : Descriptor) (data : Word) : Bool := a.msb || data == 0

/-- The checks on an instruction's fields. -/
def Instr.WellFormed : Instr → Bool
  | .initIv _ _ => true
  | .initRand _ _ => true
  | .setIv _ => true
  | .process => true
  | .encrypt => true
  | .decrypt => true
  | .updateIv => true
  | .illegalCmd w => !legalCmdWord w
  | .wrCmd _ => true
  | .rdStatus => true
  | .wrStatus _ => true
  | .rdBlkoff => true
  | .rdIvOut _ => true
  | .wrSrc _ => true
  | .wrDst _ => true
  | .wrLen _ => true
  | .rdSrc => true
  | .rdDst => true
  | .rdLen => true
  | .wrKeyIn _ _ => true
  | .wrIvIn _ _ => true
  | .rdIvIn _ => true
  | .mmioOther a data => !namedDescriptor a && readDataZero a data

/-- Words are well formed when a read carries the data 0 (30_encoding R70). -/
def Enc.WellFormed : Enc → Bool
  | .cmd _ => true
  | .mmio a data => readDataZero a data

/-- The instruction a name stands for: ENCRYPT and DECRYPT are PROCESS (30_encoding R84). -/
def Instr.canon : Instr → Instr
  | .encrypt => .process
  | .decrypt => .process
  | .initIv kl il => .initIv kl il
  | .initRand kl il => .initRand kl il
  | .setIv il => .setIv il
  | .process => .process
  | .updateIv => .updateIv
  | .illegalCmd w => .illegalCmd w
  | .wrCmd d => .wrCmd d
  | .rdStatus => .rdStatus
  | .wrStatus d => .wrStatus d
  | .rdBlkoff => .rdBlkoff
  | .rdIvOut k => .rdIvOut k
  | .wrSrc d => .wrSrc d
  | .wrDst d => .wrDst d
  | .wrLen d => .wrLen d
  | .rdSrc => .rdSrc
  | .rdDst => .rdDst
  | .rdLen => .rdLen
  | .wrKeyIn k d => .wrKeyIn k d
  | .wrIvIn k d => .wrIvIn k d
  | .rdIvIn k => .rdIvIn k
  | .mmioOther a d => .mmioOther a d

end Sys2Proof
end

