-- ==== Sys2Proof/Decode.lean ====
section
/-! DEFINITION. Decoding and encoding. The command decoder is 30_encoding R78, total on every word;
the access decoder is the table of 30_encoding R82 with its fallback. `encode` is written from the
same tables. What no format has is rejected by name. -/

namespace Sys2Proof

/-- OP, CMD[3:0] (30_encoding R71). -/
def cmdOp (w : Word) : BitVec 4 := w.extractLsb' 0 4

/-- KLEN, CMD[8:4] (30_encoding R71). -/
def cmdKlen (w : Word) : BitVec 5 := w.extractLsb' 4 5

/-- IVLEN, CMD[13:9] (30_encoding R71). -/
def cmdIvlen (w : Word) : BitVec 5 := w.extractLsb' 9 5

/-- RSV, CMD[31:14] (30_encoding R71). -/
def cmdRsv (w : Word) : BitVec 18 := w.extractLsb' 14 18

/-- The engine's decoder of CUR_CMD (30_encoding R78). -/
def decodeCmd (w : Word) : Instr :=
  if cmdRsv w ≠ 0 then .illegalCmd w
  else if cmdOp w = 1 then .initIv (cmdKlen w) (cmdIvlen w)
  else if cmdOp w = 2 then .initRand (cmdKlen w) (cmdIvlen w)
  else if cmdOp w = 3 then (if cmdKlen w = 0 then .setIv (cmdIvlen w) else .illegalCmd w)
  else if cmdOp w = 4 then (if cmdKlen w = 0 ∧ cmdIvlen w = 0 then .process else .illegalCmd w)
  else if cmdOp w = 5 then (if cmdKlen w = 0 ∧ cmdIvlen w = 0 then .updateIv else .illegalCmd w)
  else .illegalCmd w

/-- The word index `k = OFFSET[3:2]` of an indexed register (30_encoding R82). -/
def descriptorIndex (a : Descriptor) : BitVec 2 := a.extractLsb' 2 2

/-- The decoder of a 32-bit window access (30_encoding R82); every descriptor of no other row is the
fallback, whose data is kept for a write and is 0 for a read. -/
def decodeMmio (a : Descriptor) (data : Word) : Instr :=
  if a = 0x100 then .wrCmd data
  else if a = 0x004 then .rdStatus
  else if a = 0x104 then .wrStatus data
  else if a = 0x008 then .rdBlkoff
  else if a &&& 0x1F3 = 0x040 then .rdIvOut (descriptorIndex a)
  else if a = 0x110 then .wrSrc data
  else if a = 0x114 then .wrDst data
  else if a = 0x118 then .wrLen data
  else if a = 0x010 then .rdSrc
  else if a = 0x014 then .rdDst
  else if a = 0x018 then .rdLen
  else if a &&& 0x1F3 = 0x120 then .wrKeyIn (descriptorIndex a) data
  else if a &&& 0x1F3 = 0x130 then .wrIvIn (descriptorIndex a) data
  else if a &&& 0x1F3 = 0x030 then .rdIvIn (descriptorIndex a)
  else .mmioOther a (if a.msb then data else 0)

/-- The decoder, total on the words of both formats. -/
def decode : Enc → Instr
  | .cmd w => decodeCmd w
  | .mmio a data => decodeMmio a data

/-- A command word from its fields (30_encoding R71), RSV = 0. -/
def cmdWord (op : BitVec 4) (klen ivlen : BitVec 5) : Word := (0 : BitVec 18) ++ ivlen ++ klen ++ op

/-- The descriptor of register `k` of four, from the descriptor of the first (30_encoding R82). -/
def indexedDescriptor (first : Descriptor) (k : BitVec 2) : Descriptor :=
  first ||| ((0 : BitVec 5) ++ k ++ (0 : BitVec 2))

/-- The words of an instruction, from 30_encoding R71, R72, R77 and R82. -/
def encode : Instr → Enc
  | .initIv kl il => .cmd (cmdWord 1 kl il)
  | .initRand kl il => .cmd (cmdWord 2 kl il)
  | .setIv il => .cmd (cmdWord 3 0 il)
  | .process => .cmd (cmdWord 4 0 0)
  | .encrypt => .cmd (cmdWord 4 0 0)
  | .decrypt => .cmd (cmdWord 4 0 0)
  | .updateIv => .cmd (cmdWord 5 0 0)
  | .illegalCmd w => .cmd w
  | .wrCmd d => .mmio 0x100 d
  | .rdStatus => .mmio 0x004 0
  | .wrStatus d => .mmio 0x104 d
  | .rdBlkoff => .mmio 0x008 0
  | .rdIvOut k => .mmio (indexedDescriptor 0x040 k) 0
  | .wrSrc d => .mmio 0x110 d
  | .wrDst d => .mmio 0x114 d
  | .wrLen d => .mmio 0x118 d
  | .rdSrc => .mmio 0x010 0
  | .rdDst => .mmio 0x014 0
  | .rdLen => .mmio 0x018 0
  | .wrKeyIn k d => .mmio (indexedDescriptor 0x120 k) d
  | .wrIvIn k d => .mmio (indexedDescriptor 0x130 k) d
  | .rdIvIn k => .mmio (indexedDescriptor 0x030 k) 0
  | .mmioOther a d => .mmio a d

/-- A row of the opcode table: an instruction of the format matches when its bits under the mask are
the match. -/
inductive Row where
  | cmd (mtch mask : Word)
  | mmio (mtch mask : Descriptor)
deriving DecidableEq, Repr

/-- The row of spec/opcode_table.json that a constructor stands for. -/
def Instr.row : Instr → Row
  | .initIv _ _ => .cmd 0x00000001 0xFFFFC00F
  | .initRand _ _ => .cmd 0x00000002 0xFFFFC00F
  | .setIv _ => .cmd 0x00000003 0xFFFFC1FF
  | .process => .cmd 0x00000004 0xFFFFFFFF
  | .encrypt => .cmd 0x00000004 0xFFFFFFFF
  | .decrypt => .cmd 0x00000004 0xFFFFFFFF
  | .updateIv => .cmd 0x00000005 0xFFFFFFFF
  | .illegalCmd _ => .cmd 0x00000000 0x00000000
  | .wrCmd _ => .mmio 0x100 0x1FF
  | .rdStatus => .mmio 0x004 0x1FF
  | .wrStatus _ => .mmio 0x104 0x1FF
  | .rdBlkoff => .mmio 0x008 0x1FF
  | .rdIvOut _ => .mmio 0x040 0x1F3
  | .wrSrc _ => .mmio 0x110 0x1FF
  | .wrDst _ => .mmio 0x114 0x1FF
  | .wrLen _ => .mmio 0x118 0x1FF
  | .rdSrc => .mmio 0x010 0x1FF
  | .rdDst => .mmio 0x014 0x1FF
  | .rdLen => .mmio 0x018 0x1FF
  | .wrKeyIn _ _ => .mmio 0x120 0x1F3
  | .wrIvIn _ _ => .mmio 0x130 0x1F3
  | .rdIvIn _ => .mmio 0x030 0x1F3
  | .mmioOther _ _ => .mmio 0x000 0x000

/-- The words match the row. -/
def Row.covers : Row → Enc → Bool
  | .cmd mtch mask, .cmd w => w &&& mask == mtch
  | .mmio mtch mask, .mmio a _ => a &&& mask == mtch
  | .cmd _ _, .mmio _ _ => false
  | .mmio _ _, .cmd _ => false

/-- Why a string of bits is no instruction of either format. -/
inductive Reject where
  /-- No format has this many bits (30_encoding R70, R79). -/
  | width (nbits : Nat)
  /-- A bit is set between the 9-bit descriptor and its data, where neither format has one. -/
  | descriptorBits
  /-- A bit is set above the last bit of the format. -/
  | bitsAbove
deriving DecidableEq, Repr

/-- The words that `nbits` bits `w` hold, numbered as spec/opcode_table.json numbers them: 32 bits are
a command word; up to 16 bits are an access descriptor; 48 bits are a descriptor in the first two
bytes and its data above them. The numbering of an access is the model's (log 21). -/
def encOfBits (nbits w : Nat) : Except Reject Enc :=
  if nbits = 32 then
    (if w < 2 ^ 32 then .ok (.cmd (BitVec.ofNat 32 w)) else .error .bitsAbove)
  else if nbits ≤ 16 ∨ nbits = 48 then
    (if w ≥ 2 ^ 48 then .error .bitsAbove
     else if w % 2 ^ 16 ≥ 2 ^ 9 then .error .descriptorBits
     else .ok (.mmio (BitVec.ofNat 9 w) (BitVec.ofNat 32 (w / 2 ^ 16))))
  else .error (.width nbits)

/-- The decoder on bits, rejecting by name. -/
def decodeBits (nbits w : Nat) : Except Reject Instr :=
  match encOfBits nbits w with
  | .ok e => .ok (decode e)
  | .error r => .error r

/-- The instruction the decoder reads from `nbits` bits `w`, none where it rejects them. -/
def decodeTableWord (nbits w : Nat) : Option Instr :=
  match decodeBits nbits w with
  | .ok i => some i
  | .error _ => none

end Sys2Proof
end

