-- ==== Sys2Proof/Machine/State.lean ====
section
/-! DEFINITION. The state of the machine as plain data, and the machine right after reset. -/

namespace Sys2Proof.Machine

/-- IV width variant (10_state R20, R23); `none` means not initialized (R27). -/
inductive Mode where
  | none | w8 | w16
deriving DecidableEq, Repr

/-- The result codes of STATUS.ERR (60_exceptions R171); the codes 8 to 15 are never produced. -/
inductive ErrCode where
  | ok | invalidKeySize | invalidIvSize | notInitialized | ctrOverflow | illegalCmd | addrRange | busError
deriving DecidableEq, Repr

/-- W8_OVERFLOW_POLICY (00_scope R5, 41_counter R123). -/
inductive Policy where
  | fault | wrap
deriving DecidableEq, Repr

/-- Four 32-bit staging registers, index 0 first (10_state R36, R37). -/
structure Words4 where
  w0 : Word
  w1 : Word
  w2 : Word
  w3 : Word
deriving DecidableEq, Repr

/-- One CtrCipher: its parameters, cipher state, host-visible registers and latched command. -/
structure Device where
  /-- MMIO_BASE (00_scope R5, 20_memory R52). DESIGN CHOICE: 32 bits wide, the spec gives no width (log 29). -/
  base : Word
  /-- W8_OVERFLOW_POLICY (00_scope R5). -/
  policy : Policy
  /-- KEY (10_state R21). -/
  key : Quad
  /-- MODE (10_state R23). -/
  mode : Mode
  /-- IV (10_state R22). -/
  iv : Quad
  /-- BLKCNT (10_state R24). -/
  blkcnt : Quad
  /-- KS (10_state R25). -/
  ks : Quad
  /-- OFF, 0..16 (10_state R26). -/
  off : Fin 17
  /-- STATUS.BUSY (10_state R33). -/
  busy : Bool
  /-- STATUS.ERR (10_state R33). -/
  err : ErrCode
  /-- STATUS.ERRSEEN (10_state R33). -/
  errseen : Bool
  /-- STATUS.OVR (10_state R33). -/
  ovr : Bool
  /-- SRC (10_state R35). -/
  src : Word
  /-- DST (10_state R35). -/
  dst : Word
  /-- LEN (10_state R35). -/
  len : Word
  /-- KEY_IN0..KEY_IN3 (10_state R36). -/
  keyIn : Words4
  /-- IV_IN0..IV_IN3 (10_state R37). -/
  ivIn : Words4
  /-- CUR_CMD (10_state R40). -/
  curCmd : Word
  /-- CUR_SRC (10_state R40). -/
  curSrc : Word
  /-- CUR_DST (10_state R40). -/
  curDst : Word
  /-- CUR_LEN (10_state R40). -/
  curLen : Word
  /-- CUR_KEY (10_state R40). -/
  curKey : Quad
  /-- CUR_IV (10_state R40). -/
  curIv : Quad
  /-- CUR_I, 33 bits (10_state R40). -/
  curI : BitVec 33
  /-- The PROCESS in progress has passed its issue checks (70_reset_and_hazards R204; log 11). -/
  procChecked : Bool
deriving DecidableEq, Repr

/-- The bus-master memory: (address, byte) pairs, addresses strictly rising, no entry equal to what an
unlisted address reads as (20_memory R56). -/
abbrev Memory := List Host.Cell

/-- A range of admitted bus addresses, `lo` included and `hi` excluded (MemAdmit, 20_memory R56). -/
structure Region where
  lo : Nat
  hi : Nat
deriving DecidableEq, Repr

/-- The size of a host access of the window (20_memory R51). DESIGN CHOICE: the sizes other than 32 bits are
8, 16 and 64 bits, the spec says only that there are others (log 32). -/
inductive AccessSize where
  | byte | half | word | double
deriving DecidableEq, Repr

/-- What comes from outside: the host's operations in its program order, and the reset input. -/
inductive HostOp where
  /-- One host access: a write or a read, its size, its bus address and its write data (20_memory R51).
  DESIGN CHOICE: the host's bus address is 32 bits wide, the spec gives no width (log 29). -/
  | access (write : Bool) (size : AccessSize) (addr data : Word)
  /-- WAIT on the window at `base`: STATUS is read until BUSY is 0 (30_encoding R84). -/
  | wait (base : Word)
  /-- The host reads one byte of memory (00_scope R11, 20_memory R62, R63). -/
  | memRead (addr : Word)
  /-- The host writes one byte of memory (00_scope R11, 20_memory R62, R63). -/
  | memWrite (addr : Word) (value : Byte)
  /-- The reset input of the device whose window is at `base` is asserted (70_reset_and_hazards R200). -/
  | resetInput (base : Word)
deriving DecidableEq, Repr

/-- Who takes a step: the host, or the engine of device number `k` (00_scope R11, 60_exceptions R180). -/
inductive Agent where
  | host
  | engine (k : Nat)
deriving DecidableEq, Repr

/-- The last response on the host's bus (log 22). -/
inductive Resp where
  /-- No access was made yet. -/
  | none
  /-- A write was answered. -/
  | ack
  /-- A window read returned this register value (20_memory R53). -/
  | data (v : Word)
  /-- A memory read returned this byte. -/
  | byte (v : Byte)
  /-- The host bus error response, which returns no data (20_memory R51). -/
  | busError
  /-- The address is in no window, so the access reached no block (20_memory R52). -/
  | notClaimed
deriving DecidableEq, Repr

/-- A race window: a PROCESS was accepted, and the host has not read STATUS with BUSY = 0 since
(20_memory R63; log 10). -/
structure RaceWindow where
  /-- The window base of the device that runs the command. -/
  owner : Word
  /-- The command's source address. -/
  src : Word
  /-- The command's destination address. -/
  dst : Word
  /-- The command's byte count. -/
  len : Word
  /-- The memory when the command was accepted. -/
  before : Memory
  /-- For each host write since then into its ranges, what the engine may also see there: the address
  with the byte it held before, and with the byte written. -/
  wrote : List Host.Cell
  /-- What the engine has stored since then: the address, and the byte. -/
  stored : List Host.Cell
deriving DecidableEq, Repr

/-- The machine. -/
structure State where
  /-- The device that `exec` acts on. -/
  dev : Device
  /-- The other devices (60_exceptions R180). -/
  peers : List Device
  /-- The bus-master memory (20_memory R56). -/
  mem : Memory
  /-- MemAdmit, the admitted bus addresses (00_scope R5, 20_memory R56). -/
  memAdmit : List Region
  /-- Whether the platform answers each coming engine access with an error (42_process R141; log 8). -/
  busAnswers : List Bool
  /-- The host's pending operations, the next first. DESIGN CHOICE: the operations of several bus masters
  are one list that does not name the master (log 33). -/
  hostQ : List HostOp
  /-- Who takes the next steps; when empty, a busy engine if there is one, else the host (log 2). -/
  sched : List Agent
  /-- The last response on the host's bus (log 22). -/
  resp : Resp
  /-- A host access got the host bus error (20_memory R51; log 13). -/
  hostFault : Bool
  /-- The open race windows, the newest first (20_memory R63; log 10). -/
  races : List RaceWindow
  /-- Selects the next free values; no statement rests on its value (log 19). -/
  free : Nat
deriving DecidableEq, Repr

/-- Why a step stops with a fault. No step does, so the type has no constructor: no event of the block
stops it for good (60_exceptions R170), and what the spec calls an error is a completion of its command
or a response on the host's bus. Safe: nothing is left out by a stop. -/
inductive Fault where
deriving DecidableEq, Repr

/-- Why a step is refused. -/
inductive Refusal where
  /-- An instruction without a meaning yet, raised by the arms of exec alone; no arm does. Safe. -/
  | notModelled (mnemonic : String)
deriving DecidableEq, Repr

/-- A device right after reset, with its two parameters kept (10_state R43, 70_reset_and_hazards R200). -/
def Device.reset (base : Word) (policy : Policy) : Device where
  base := base
  policy := policy
  key := 0
  mode := .none
  iv := 0
  blkcnt := 0
  ks := 0
  off := 16
  busy := false
  err := .ok
  errseen := false
  ovr := false
  src := 0
  dst := 0
  len := 0
  keyIn := ⟨0, 0, 0, 0⟩
  ivIn := ⟨0, 0, 0, 0⟩
  curCmd := 0
  curSrc := 0
  curDst := 0
  curLen := 0
  curKey := 0
  curIv := 0
  curI := 0
  procChecked := false

/-- The machine right after reset: one device reset as 10_state R43 says, under the default policy
FAULT (00_scope R5). The other values are DESIGN CHOICES: the window at 0, every bus address admitted,
one device (log 4), memory with nothing listed (log 1), and the model's own fields empty. -/
def State.reset : State where
  dev := Device.reset 0 .fault
  peers := []
  mem := []
  memAdmit := [⟨0, 2 ^ 32⟩]
  busAnswers := []
  hostQ := []
  sched := []
  resp := .none
  hostFault := false
  races := []
  free := 0

end Sys2Proof.Machine
end

