-- ==== Sys2Proof/Machine/Ops.lean ====
section
/-! DEFINITION. The named operations: bytes and integers, memory, bus accesses, the completion of a
command (the hardware's only exception mechanism, 60_exceptions R174, R176), LoadIv, and acceptance. -/

namespace Sys2Proof.Machine

/-! Bytes and integers (00_scope R8). -/

/-- Byte `j` of a 128-bit value, byte 0 the most significant: `v[127−8j : 120−8j]`. Bytes past 15 do
not exist and read 0. -/
def byteAt (v : Quad) (j : Nat) : Byte :=
  if j < 16 then v.extractLsb' (120 - 8 * j) 8 else 0

/-- The big-endian integer of a byte sequence. -/
def bigEndian : List Byte → Nat
  | [] => 0
  | b :: bs => b.toNat * 2 ^ (8 * bs.length) + bigEndian bs

/-- Word `k` of a 128-bit value, word 0 the most significant: `v[127−32k : 96−32k]` (10_state R38). -/
def wordAt (v : Quad) (k : BitVec 2) : Word := v.extractLsb' (96 - 32 * k.toNat) 32

/-! The four staging registers of a key or an IV. -/

/-- The register with index `k`. -/
def Words4.get (q : Words4) (k : BitVec 2) : Word :=
  if k = 0 then q.w0 else if k = 1 then q.w1 else if k = 2 then q.w2 else q.w3

/-- The registers after a write of register `k`. -/
def Words4.set (q : Words4) (k : BitVec 2) (v : Word) : Words4 :=
  if k = 0 then { q with w0 := v }
  else if k = 1 then { q with w1 := v }
  else if k = 2 then { q with w2 := v }
  else { q with w3 := v }

/-- `W0 ++ W1 ++ W2 ++ W3`, the big-endian integer of the 16 staging bytes (20_memory R55). -/
def Words4.cat (q : Words4) : Quad := q.w0 ++ q.w1 ++ q.w2 ++ q.w3

/-! Memory (20_memory R56, R57). -/

/-- What an address that nothing has written reads as. DESIGN CHOICE, unsafe: the spec gives no
contents (log 1). -/
def unlistedByte : Byte := 0

/-- The byte at an address. DESIGN CHOICE, unsafe: the memory is plain storage, so a read changes nothing and
gives the last byte stored; the platforms that 20_memory R57 permits, whose reads have side effects, are not
modelled (log 31). -/
def Memory.read : Memory → Nat → Byte
  | [], _ => unlistedByte
  | c :: m, a => if c.1 = a then c.2 else Memory.read m a

/-- The memory without its entry for an address. -/
def Memory.erase : Memory → Nat → Memory
  | [], _ => []
  | c :: m, a => if c.1 = a then Memory.erase m a else c :: Memory.erase m a

/-- The memory with an entry added before the first entry of a higher address. -/
def Memory.insert : Memory → Nat → Byte → Memory
  | [], a, v => [(a, v)]
  | c :: m, a, v => if a < c.1 then (a, v) :: c :: m else c :: Memory.insert m a v

/-- The memory after a byte is stored. -/
def Memory.write (m : Memory) (a : Nat) (v : Byte) : Memory :=
  if v = unlistedByte then m.erase a else (m.erase a).insert a v

/-- From the address `lo` on, addresses rise strictly, lie in the 32-bit space, and no entry is what an
unlisted address reads as. -/
def Memory.wfFrom (lo : Nat) : Memory → Bool
  | [] => true
  | c :: m => decide (lo ≤ c.1) && decide (c.1 < 2 ^ 32) && decide (c.2 ≠ unlistedByte) &&
      Memory.wfFrom (c.1 + 1) m

/-- The canonical form of a memory. -/
def Memory.wf (m : Memory) : Bool := m.wfFrom 0

/-! Small updates of the state. -/

/-- The state with its device changed. -/
def State.withDev (s : State) (d : Device) : State := { s with dev := d }

/-- The state with a response on the host's bus. -/
def State.answer (s : State) (r : Resp) : State := { s with resp := r }

/-- The state with the free values of this step used up. -/
def State.bumpFree (s : State) : State := { s with free := s.free + 1 }

/-- The host bus error response: no effect on any block, no data, and a fault of the host
(20_memory R51; log 13). -/
def State.hostBusError (s : State) : State := { s with resp := .busError, hostFault := true }

/-! Bus accesses of the engine (20_memory R57, 42_process R141). -/

/-- MemAdmit: the address is in an admitted range (20_memory R56). -/
def State.admits (s : State) (a : Word) : Bool :=
  s.memAdmit.any fun r => decide (r.lo ≤ a.toNat) && decide (a.toNat < r.hi)

/-- The coming access of an address is answered with an error: MemAdmit rejects it, or the platform
answers so (42_process R141). -/
def State.accessFails (s : State) (a : Word) : Bool := !s.admits a || s.busAnswers.headD false

/-- The state with the answer to one access taken. -/
def State.takeAnswer (s : State) : State := { s with busAnswers := s.busAnswers.tail }

/-- The addresses of `n` bytes from `base` on hold the address `a`. -/
def inRange (base n a : Word) : Bool :=
  decide (base.toNat ≤ a.toNat) && decide (a.toNat < base.toNat + n.toNat)

/-- The address is in the command's source range. -/
def RaceWindow.inSrc (w : RaceWindow) (a : Word) : Bool := inRange w.src w.len a

/-- The address is in the command's destination range. -/
def RaceWindow.inDst (w : RaceWindow) (a : Word) : Bool := inRange w.dst w.len a

/-- The race window of the command the device is running: its newest. -/
def State.ownWindow (s : State) : Option RaceWindow :=
  s.races.find? fun w => w.owner == s.dev.base

/-- What the engine may see at `a` beside the memory's byte: for each of the host's writes to it while the
device's command has been running, the byte before and the byte written (20_memory R63). -/
def State.overwritten (s : State) (a : Word) : List Byte :=
  match s.ownWindow with
  | none => []
  | some w => (w.wrote.filter fun c => c.1 == a.toNat).map (·.2)

/-- One of the current value and the other admitted values, by a free choice. -/
def pick (choice : Nat) (cur : Byte) : List Byte → Byte
  | [] => cur
  | c :: cs => (cur :: c :: cs).getD (choice % (cs.length + 2)) cur

/-- The byte the engine's read of `a` returns: the memory's, or, where the host has written it while the
command runs, that or another of the admitted ones (20_memory R63; log 10). -/
def State.engineByte (s : State) (a : Word) : Byte :=
  pick (Config.engineReadChoice s.free) (s.mem.read a.toNat) (s.overwritten a)

/-- The memory after the byte at `a` becomes `v`. -/
def State.setByte (s : State) (a : Word) (v : Byte) : State :=
  { s with mem := s.mem.write a.toNat v }

/-- In a race window of the device: the byte at `a` may also be seen as `alt`, and as nothing else. -/
def RaceWindow.noteStore (w : RaceWindow) (owner a : Word) (alt : Byte) : RaceWindow :=
  if w.owner = owner then
    { w with wrote := (a.toNat, alt) :: w.wrote.filter fun c => c.1 != a.toNat }
  else w

/-- The device's race windows record the other of the two writes to a raced byte. -/
def State.noteStore (s : State) (a : Word) (alt : Byte) : State :=
  { s with races := s.races.map fun w => w.noteStore s.dev.base a alt }

/-- The race window records that the engine has stored `v` at `a`. -/
def RaceWindow.markStored (w : RaceWindow) (owner a : Word) (v : Byte) : RaceWindow :=
  if w.owner = owner then
    { w with stored := (a.toNat, v) :: w.stored.filter fun c => c.1 != a.toNat }
  else w

/-- The device's race windows record that its engine has stored `v` at `a`. -/
def State.markStored (s : State) (a : Word) (v : Byte) : State :=
  { s with races := s.races.map fun w => w.markStored s.dev.base a v }

/-- The byte at `a` becomes `v` by the engine, with no host write before it. -/
def State.engineSet (s : State) (a : Word) (v : Byte) : State := (s.markStored a v).setByte a v

/-- The engine stores `v` at `a`. Where the host has written the byte while the command runs, its value
becomes either write, and a later read of the command may see the other (20_memory R63; log 10). -/
def State.engineStore (s : State) (a : Word) (v : Byte) : State :=
  if (s.overwritten a).isEmpty then s.engineSet a v
  else if Config.engineWriteLost s.free then (s.markStored a v).noteStore a v
  else (s.noteStore a (s.mem.read a.toNat)).engineSet a v

/-! Completion of a command, the only thing an error does (60_exceptions R170, R174, R176). -/

/-- The device after its command completes with a code: ERR is the code, ERRSEEN is set if it is an
error, CUR_KEY is 0, BUSY is 0 (10_state R42, 60_exceptions R174, R176). -/
def Device.finish (d : Device) (c : ErrCode) : Device :=
  { d with
    err := c
    errseen := d.errseen || decide (c ≠ .ok)
    curKey := 0
    busy := false
    procChecked := false }

/-- The command of the device completes with a code. -/
def State.finish (s : State) (c : ErrCode) : State := s.withDev (s.dev.finish c)

/-- LoadIv(il, v): `v` becomes the active IV of width `il` bytes and a new sample starts (40_init R100).
It is called with `il` 8 or 16 only. -/
def Device.loadIv (d : Device) (il : BitVec 5) (v : Quad) : Device :=
  if il = 16 then { d with mode := .w16, iv := v, blkcnt := 0, off := 16 }
  else { d with mode := .w8, iv := v.extractLsb' 64 64 ++ (0 : BitVec 64), blkcnt := 0, off := 16 }

/-! Acceptance of a command (70_reset_and_hazards R204). -/

/-- The device after it accepts the word `w`. -/
def Device.accept (d : Device) (w : Word) : Device :=
  { d with
    curCmd := w
    curSrc := d.src
    curDst := d.dst
    curLen := d.len
    curKey := d.keyIn.cat
    curIv := d.ivIn.cat
    curI := 0
    keyIn := if cmdOp w = 1 ∨ cmdOp w = 2 then ⟨0, 0, 0, 0⟩ else d.keyIn
    busy := true
    procChecked := false }

/-- The race window that an accepted word opens: one for a PROCESS, none for another command
(20_memory R63). -/
def State.windowOf (s : State) (w : Word) : List RaceWindow :=
  if decodeCmd w = .process then
    [{ owner := s.dev.base, src := s.dev.src, dst := s.dev.dst, len := s.dev.len,
       before := s.mem, wrote := [], stored := [] }]
  else []

/-- The state after the device accepts the word `w`. -/
def State.accept (s : State) (w : Word) : State :=
  { s with dev := s.dev.accept w, races := s.windowOf w ++ s.races }

/-- The race windows of the device's commands are closed: the host has seen them complete
(20_memory R62, R63). DESIGN CHOICE, unsafe: they are closed for every bus master, whichever read STATUS
(log 33). -/
def State.closeWindows (s : State) : State :=
  { s with races := s.races.filter fun w => w.owner != s.dev.base }

end Sys2Proof.Machine
end

