-- ==== Sys2Proof/Machine/Operands.lean ====
section
/-! DEFINITION. Operand assembly (30_encoding R73, R74, R79; 42_process R130). -/

namespace Sys2Proof.Machine

/-- `klen = zext_32(CUR_CMD[8:4])` is 16, the only legal key length (30_encoding R73). -/
def keyLenLegal (klen : BitVec 5) : Bool := klen.setWidth 32 == 16#32

/-- `ivlen_f = zext_32(CUR_CMD[13:9])` is 8 or 16, the legal IV lengths (30_encoding R74). -/
def ivLenLegal (ivlen : BitVec 5) : Bool := ivlen.setWidth 32 == 8#32 || ivlen.setWidth 32 == 16#32

/-- The `il` bytes of draw `n`, byte 0 first (00_scope R4). -/
def drawBytes (n : Nat) (il : BitVec 5) : List Byte :=
  (List.range il.toNat).map (Config.randomByte n)

/-- `be(r) ++ 0^(128 − 8·il)` for the draw `r` of `il` bytes (40_init R103). -/
def drawnIv (n : Nat) (il : BitVec 5) : Quad :=
  BitVec.ofNat 128 (bigEndian (drawBytes n il) * 2 ^ (128 - 8 * il.toNat))

/-- The source address of byte CUR_I (42_process R130, R132). -/
def Device.srcAddr (d : Device) : Word := d.curSrc + d.curI.setWidth 32

/-- The destination address of byte CUR_I (42_process R130, R132). -/
def Device.dstAddr (d : Device) : Word := d.curDst + d.curI.setWidth 32

/-- `src + n > 2^32` or `dst + n > 2^32`, the sums exact (42_process R131). -/
def Device.rangeWraps (d : Device) : Bool :=
  decide (d.curSrc.toNat + d.curLen.toNat > 2 ^ 32) || decide (d.curDst.toNat + d.curLen.toNat > 2 ^ 32)

end Sys2Proof.Machine
end

