-- ==== Sys2Proof/Machine/Advance.lean ====
section
/-! DEFINITION. UPDATE_IV (43_ivadvance_access R150 to R153), one engine step. -/

namespace Sys2Proof.Machine

/-- The IV of the next sample (43_ivadvance_access R150, R151). MODE = NONE has none and UPDATE_IV
refuses it first. -/
def nextIv : Mode → Quad → Quad → Quad
  | .w16, iv, blkcnt => iv + blkcnt
  | .w8, iv, _ => (iv.extractLsb' 64 64 + 1) ++ (0 : BitVec 64)
  | .none, iv, _ => iv

/-- UPDATE_IV on the device (43_ivadvance_access R152, R153). -/
def Device.updateIv (d : Device) : Device :=
  if d.mode = .none then d.finish .notInitialized
  else { d with iv := nextIv d.mode d.iv d.blkcnt, blkcnt := 0, off := 16 }.finish .ok

/-- UPDATE_IV (43_ivadvance_access R152). -/
def execUpdateIv (s : State) : Host.Outcome State Fault Refusal :=
  .next (s.withDev s.dev.updateIv)

end Sys2Proof.Machine
end

