-- ==== Sys2Proof/Machine/Init.lean ====
section
/-! DEFINITION. The initialization commands and the illegal word: INIT_IV, INIT_RAND, SET_IV
(40_init R102 to R104), ILLEGAL_CMD (30_encoding R75 to R78). Each runs in one engine step. -/

namespace Sys2Proof.Machine

/-- The checks of INIT_IV and INIT_RAND in order, none for success (40_init R102, R103). -/
def initCheck (kl il : BitVec 5) : Option ErrCode :=
  if !keyLenLegal kl then some .invalidKeySize
  else if !ivLenLegal il then some .invalidIvSize
  else none

/-- INIT_IV on the device (40_init R102). -/
def Device.initIv (d : Device) (kl il : BitVec 5) : Device :=
  match initCheck kl il with
  | some c => d.finish c
  | none => ({ d with key := d.curKey }.loadIv il d.curIv).finish .ok

/-- INIT_IV (40_init R102). -/
def execInitIv (kl il : BitVec 5) (s : State) : Host.Outcome State Fault Refusal :=
  .next (s.withDev (s.dev.initIv kl il))

/-- INIT_RAND: nothing is drawn when a check fails (40_init R103, D35). -/
def execInitRand (kl il : BitVec 5) (s : State) : Host.Outcome State Fault Refusal :=
  match initCheck kl il with
  | some c => .next (s.finish c)
  | none =>
    .next (s.bumpFree.withDev
      (({ s.dev with key := s.dev.curKey }.loadIv il (drawnIv s.free il)).finish .ok))

/-- SET_IV on the device (40_init R104). -/
def Device.setIv (d : Device) (il : BitVec 5) : Device :=
  if d.mode = .none then d.finish .notInitialized
  else if !ivLenLegal il then d.finish .invalidIvSize
  else (d.loadIv il d.curIv).finish .ok

/-- SET_IV (40_init R104). -/
def execSetIv (il : BitVec 5) (s : State) : Host.Outcome State Fault Refusal :=
  .next (s.withDev (s.dev.setIv il))

/-- Every other command word fails with ILLEGAL_CMD, whatever the word (30_encoding R75 to R77). -/
def execIllegalCmd (_w : Word) (s : State) : Host.Outcome State Fault Refusal :=
  .next (s.finish .illegalCmd)

end Sys2Proof.Machine
end

