-- ==== Sys2Proof/Machine/Counter.lean ====
section
/-! DEFINITION. Counter-block derivation and block entry (41_counter). -/

namespace Sys2Proof.Machine

/-- `CounterBlock(MODE, IV, n)` (41_counter R120, R121). The spec gives none for MODE = NONE, and
`enterBlock` refuses that mode before it is used (log 17). -/
def counterBlock : Mode → Quad → Quad → Quad
  | .w16, iv, n => iv + n
  | .w8, iv, n => iv.extractLsb' 64 64 ++ n.setWidth 64
  | .none, iv, _ => iv

/-- The keystream a byte step uses: the block, the block count to commit, and the offset of its byte. -/
structure Keystream where
  ks : Quad
  blk : Quad
  o : Fin 17
deriving DecidableEq, Repr

/-- The W8 sub-block counter has no index left, under policy FAULT (41_counter R123). -/
def Device.ctrOverflows (d : Device) : Bool :=
  decide (d.mode = .w8) && decide (2 ^ 64 ≤ d.blkcnt.toNat) && decide (d.policy = .fault)

/-- EnterBlock: a fresh keystream block and the new count, or the error (41_counter R122). Its
precondition MODE ≠ NONE is checked too, so that it is total (log 17). -/
def Device.enterBlock (d : Device) : Except ErrCode Keystream :=
  if d.mode = .none then .error .notInitialized
  else if d.ctrOverflows then .error .ctrOverflow
  else .ok ⟨Config.blockEncrypt d.key (counterBlock d.mode d.iv d.blkcnt), d.blkcnt + 1, 0⟩

/-- The keystream of the next byte: block entry when OFF = 16, else the cached block (42_process R132). -/
def Device.nextKeystream (d : Device) : Except ErrCode Keystream :=
  if d.off = 16 then d.enterBlock else .ok ⟨d.ks, d.blkcnt, d.off⟩

/-- The next byte has a keystream: its block entry, if it needs one, raises no error. -/
def Device.hasKeystream (d : Device) : Bool :=
  match d.nextKeystream with
  | .ok _ => true
  | .error _ => false

/-- `byte_o(ks)` (41_counter R124). -/
def Keystream.byte (k : Keystream) : Byte := byteAt k.ks k.o.val

end Sys2Proof.Machine
end

