-- ==== Sys2Proof/Machine/Process.lean ====
section
/-! DEFINITION. PROCESS (42_process): issue checks, byte steps, completion, one engine step each. -/

namespace Sys2Proof.Machine

/-- The issue step: MODE first, then the address range; success starts the byte steps at CUR_I = 0
(42_process R131, R132). -/
def Device.processIssue (d : Device) : Device :=
  if d.mode = .none then d.finish .notInitialized
  else if d.rangeWraps then d.finish .addrRange
  else { d with curI := 0, procChecked := true }

/-- The commit of a byte step: KS, BLKCNT and OFF, then the next byte (42_process R132). -/
def Device.commitByte (d : Device) (k : Keystream) : Device :=
  { d with ks := k.ks, blkcnt := k.blk, off := k.o + 1, curI := d.curI + 1 }

/-- The write of a byte step: the destination byte becomes `v`, or, after a bus error, any value
(42_process R141). -/
def State.byteWrite (s : State) (k : Keystream) (v : Byte) : State :=
  if s.accessFails s.dev.dstAddr then
    (s.takeAnswer.engineSet s.dev.dstAddr (Config.writeErrorByte s.free)).bumpFree.finish .busError
  else
    (s.takeAnswer.engineStore s.dev.dstAddr v).bumpFree.withDev (s.dev.commitByte k)

/-- The read of a byte step, and its write (42_process R132, R141). -/
def State.byteAccess (s : State) (k : Keystream) : State :=
  if s.accessFails s.dev.srcAddr then s.takeAnswer.bumpFree.finish .busError
  else s.takeAnswer.byteWrite k (s.engineByte s.dev.srcAddr ^^^ k.byte)

/-- ByteStep(CUR_I): an error commits none of KS, BLKCNT and OFF (42_process R132, R133). -/
def State.byteStep (s : State) : State :=
  match s.dev.nextKeystream with
  | .error c => s.finish c
  | .ok k => s.byteAccess k

/-- One engine step of PROCESS: the issue checks, then one byte, then the completion
(42_process R132, 70_reset_and_hazards R204; log 11). -/
def State.processStep (s : State) : State :=
  if !s.dev.procChecked then s.withDev s.dev.processIssue
  else if s.dev.curI.toNat < s.dev.curLen.toNat then s.byteStep
  else s.finish .ok

/-- PROCESS (42_process R132). -/
def execProcess (s : State) : Host.Outcome State Fault Refusal := .next s.processStep

/-- ENCRYPT is PROCESS (30_encoding R84, 42_process R140). -/
def execEncrypt (s : State) : Host.Outcome State Fault Refusal := .next s.processStep

/-- DECRYPT is PROCESS (30_encoding R84, 42_process R140). -/
def execDecrypt (s : State) : Host.Outcome State Fault Refusal := .next s.processStep

end Sys2Proof.Machine
end

