-- ==== Sys2Proof/Machine/Flags.lean ====
section
/-! DEFINITION. The STATUS register and the other views of cipher state (10_state R33, R34, R38), idle
and while a command runs (70_reset_and_hazards R207). -/

namespace Sys2Proof.Machine

/-- The number of a result code (60_exceptions R171). -/
def ErrCode.bits : ErrCode → BitVec 4
  | .ok => 0
  | .invalidKeySize => 1
  | .invalidIvSize => 2
  | .notInitialized => 3
  | .ctrOverflow => 4
  | .illegalCmd => 5
  | .addrRange => 6
  | .busError => 7

/-- `ivlen(MODE)` (10_state R23). -/
def Mode.ivlen : Mode → BitVec 5
  | .none => 0
  | .w8 => 8
  | .w16 => 16

/-- `INIT = (MODE ≠ NONE)` (10_state R27). -/
def Mode.init (m : Mode) : BitVec 1 := BitVec.ofBool (decide (m ≠ .none))

/-- The STATUS word of its fields; bit 7 and bits 31:14 read 0 (10_state R33). -/
def statusWord (ovr errseen : Bool) (err : BitVec 4) (ivlen : BitVec 5) (init : BitVec 1) (busy : Bool) :
    Word :=
  (0 : BitVec 18) ++ BitVec.ofBool ovr ++ BitVec.ofBool errseen ++ err ++ (0 : BitVec 1) ++ ivlen ++ init ++
    BitVec.ofBool busy

/-- What a read of STATUS returns: exact when idle; while BUSY = 1 the fields INIT, IVLEN and ERR are
free values (70_reset_and_hazards R207). -/
def State.statusRead (s : State) : Word :=
  if s.dev.busy then
    statusWord s.dev.ovr s.dev.errseen (Config.busyErr s.free) (Config.busyIvlen s.free)
      (Config.busyInit s.free) true
  else
    statusWord s.dev.ovr s.dev.errseen s.dev.err.bits s.dev.mode.ivlen s.dev.mode.init false

/-- What a read of BLKOFF returns: `OFF mod 16`, or while BUSY = 1 a free value (10_state R34). -/
def State.blkoffRead (s : State) : Word :=
  if s.dev.busy then (0 : BitVec 28) ++ Config.busyBlkoff s.free
  else (0 : BitVec 28) ++ BitVec.ofNat 4 (s.dev.off.val % 16)

/-- What a read of IV_OUT `k` returns, or while BUSY = 1 a free value (10_state R38). -/
def State.ivOutRead (s : State) (k : BitVec 2) : Word :=
  if s.dev.busy then Config.busyIvOut s.free else wordAt s.dev.iv k

/-- The device after a STATUS write: bit 12 clears ERRSEEN, bit 13 clears OVR, nothing else (10_state R33). -/
def Device.writeStatus (d : Device) (w : Word) : Device :=
  { d with
    errseen := d.errseen && !w.getLsbD 12
    ovr := d.ovr && !w.getLsbD 13 }

end Sys2Proof.Machine
end

