-- ==== Sys2Proof/Machine/Window.lean ====
section
/-! DEFINITION. The host's accesses of the window (30_encoding R82). A read leaves every device as it
was (20_memory R53): it changes the response and the model's own bookkeeping only. -/

namespace Sys2Proof.Machine

/-- A write is answered, the device becoming `d`. -/
def State.ackWith (s : State) (d : Device) : State := (s.withDev d).answer .ack

/-- A read of a field that is unspecified while BUSY = 1 uses up free values then
(70_reset_and_hazards R207). -/
def State.bumpIfBusy (s : State) : State := if s.dev.busy then s.bumpFree else s

/-- CMD write: accepted when idle, dropped with OVR set when busy (70_reset_and_hazards R204, R205). -/
def execWrCmd (data : Word) (s : State) : Host.Outcome State Fault Refusal :=
  if s.dev.busy then .next (s.ackWith { s.dev with ovr := true })
  else .next ((s.accept data).answer .ack)

/-- STATUS read (10_state R33). With BUSY = 0 it shows the commands complete, which ends their race
windows (20_memory R62). -/
def execRdStatus (s : State) : Host.Outcome State Fault Refusal :=
  if s.dev.busy then .next (s.bumpFree.answer (.data s.statusRead))
  else .next (s.closeWindows.answer (.data s.statusRead))

/-- STATUS write (10_state R33). -/
def execWrStatus (data : Word) (s : State) : Host.Outcome State Fault Refusal :=
  .next (s.ackWith (s.dev.writeStatus data))

/-- BLKOFF read, `blockOffset()` (43_ivadvance_access R155). -/
def execRdBlkoff (s : State) : Host.Outcome State Fault Refusal :=
  .next (s.bumpIfBusy.answer (.data s.blkoffRead))

/-- IV_OUT read, `iv()` (43_ivadvance_access R154). -/
def execRdIvOut (k : BitVec 2) (s : State) : Host.Outcome State Fault Refusal :=
  .next (s.bumpIfBusy.answer (.data (s.ivOutRead k)))

/-- SRC write (10_state R35). -/
def execWrSrc (data : Word) (s : State) : Host.Outcome State Fault Refusal :=
  .next (s.ackWith { s.dev with src := data })

/-- DST write (10_state R35). -/
def execWrDst (data : Word) (s : State) : Host.Outcome State Fault Refusal :=
  .next (s.ackWith { s.dev with dst := data })

/-- LEN write (10_state R35). -/
def execWrLen (data : Word) (s : State) : Host.Outcome State Fault Refusal :=
  .next (s.ackWith { s.dev with len := data })

/-- SRC read (10_state R35). -/
def execRdSrc (s : State) : Host.Outcome State Fault Refusal := .next (s.answer (.data s.dev.src))

/-- DST read (10_state R35). -/
def execRdDst (s : State) : Host.Outcome State Fault Refusal := .next (s.answer (.data s.dev.dst))

/-- LEN read (10_state R35). -/
def execRdLen (s : State) : Host.Outcome State Fault Refusal := .next (s.answer (.data s.dev.len))

/-- KEY_IN write (10_state R36). -/
def execWrKeyIn (k : BitVec 2) (data : Word) (s : State) : Host.Outcome State Fault Refusal :=
  .next (s.ackWith { s.dev with keyIn := s.dev.keyIn.set k data })

/-- IV_IN write (10_state R37). -/
def execWrIvIn (k : BitVec 2) (data : Word) (s : State) : Host.Outcome State Fault Refusal :=
  .next (s.ackWith { s.dev with ivIn := s.dev.ivIn.set k data })

/-- IV_IN read (10_state R37). -/
def execRdIvIn (k : BitVec 2) (s : State) : Host.Outcome State Fault Refusal :=
  .next (s.answer (.data (s.dev.ivIn.get k)))

/-- Every other access: an offset that is no multiple of 4 gets the host bus error (20_memory R51);
else a write is ignored and a read returns 0 (10_state R39, 30_encoding R82). -/
def execMmioOther (a : Descriptor) (_data : Word) (s : State) : Host.Outcome State Fault Refusal :=
  if a.extractLsb' 0 2 ≠ 0 then .next s.hostBusError
  else if a.msb then .next (s.answer .ack)
  else .next (s.answer (.data 0))

end Sys2Proof.Machine
end

