-- ==== Sys2Proof/Machine/Dispatch.lean ====
section
/-! DEFINITION. The meaning of every instruction, one arm per constructor. -/

namespace Sys2Proof.Machine

def exec (i : Instr) (s : State) : Host.Outcome State Fault Refusal :=
  match i with
  | .initIv klen ivlen => Sys2Proof.Machine.execInitIv klen ivlen s
  | .initRand klen ivlen => Sys2Proof.Machine.execInitRand klen ivlen s
  | .setIv ivlen => Sys2Proof.Machine.execSetIv ivlen s
  | .process => Sys2Proof.Machine.execProcess s
  | .encrypt => Sys2Proof.Machine.execEncrypt s
  | .decrypt => Sys2Proof.Machine.execDecrypt s
  | .updateIv => Sys2Proof.Machine.execUpdateIv s
  | .illegalCmd w => Sys2Proof.Machine.execIllegalCmd w s
  | .wrCmd data => Sys2Proof.Machine.execWrCmd data s
  | .rdStatus => Sys2Proof.Machine.execRdStatus s
  | .wrStatus data => Sys2Proof.Machine.execWrStatus data s
  | .rdBlkoff => Sys2Proof.Machine.execRdBlkoff s
  | .rdIvOut k => Sys2Proof.Machine.execRdIvOut k s
  | .wrSrc data => Sys2Proof.Machine.execWrSrc data s
  | .wrDst data => Sys2Proof.Machine.execWrDst data s
  | .wrLen data => Sys2Proof.Machine.execWrLen data s
  | .rdSrc => Sys2Proof.Machine.execRdSrc s
  | .rdDst => Sys2Proof.Machine.execRdDst s
  | .rdLen => Sys2Proof.Machine.execRdLen s
  | .wrKeyIn k data => Sys2Proof.Machine.execWrKeyIn k data s
  | .wrIvIn k data => Sys2Proof.Machine.execWrIvIn k data s
  | .rdIvIn k => Sys2Proof.Machine.execRdIvIn k s
  | .mmioOther a data => Sys2Proof.Machine.execMmioOther a data s

end Sys2Proof.Machine
end

