-- ==== Sys2Proof/Machine/Environment.lean ====
section
/-! DEFINITION. What comes from outside and is no window access: the host's own accesses of the memory
(20_memory R62, R63) and the reset input (70_reset_and_hazards R200, R201). DESIGN CHOICE: MemAdmit and the
platform's error answers bound the engine's accesses alone; the host's own are served at every address
(log 28). -/

namespace Sys2Proof.Machine

/-- The byte the engine has stored at `a` since the window opened, if it has. -/
def RaceWindow.storedAt (w : RaceWindow) (a : Word) : Option Byte :=
  (w.stored.find? fun c => c.1 == a.toNat).map (·.2)

/-- What each PROCESS that the host has not yet seen complete has stored at `a`. -/
def State.storedBytes (s : State) (a : Word) : List Byte :=
  (s.races.filter fun w => w.inDst a).filterMap fun w => w.storedAt a

/-- The values that 20_memory R63 admits for a host read of `a` beside the memory's: what the byte held
before each PROCESS that the host has not yet seen complete and that has it in its destination range, and
what that PROCESS has stored there. -/
def State.staleBytes (s : State) (a : Word) : List Byte :=
  ((s.races.filter fun w => w.inDst a).map fun w => Memory.read w.before a.toNat) ++ s.storedBytes a

/-- The host reads the byte at `a`: the memory's, or, in the destination range of a command it has not
seen complete, that, the value before the command or the one it has stored (20_memory R62, R63; log 10).
DESIGN CHOICE: also at an address that MemAdmit rejects (log 28). -/
def State.hostRead (s : State) (a : Word) : State :=
  s.bumpFree.answer
    (.byte (pick (Config.hostReadChoice s.free) (s.mem.read a.toNat) (s.staleBytes a)))

/-- A race window after the host writes `v` to the byte at `a`, which held `old`. -/
def RaceWindow.noteWrite (w : RaceWindow) (a : Word) (old v : Byte) : RaceWindow :=
  if w.inSrc a || w.inDst a then { w with wrote := (a.toNat, old) :: (a.toNat, v) :: w.wrote } else w

/-- The race windows record the host's write of `v` to the byte at `a`. -/
def State.noteWrite (s : State) (a : Word) (v : Byte) : State :=
  { s with races := s.races.map fun w => w.noteWrite a (s.mem.read a.toNat) v }

/-- The host writes `v` to the byte at `a`. Where a command that the host has not seen complete has stored
the byte, its final value is either write (20_memory R62, R63; log 10). DESIGN CHOICE: also at an address
that MemAdmit rejects (log 28). -/
def State.hostWrite (s : State) (a : Word) (v : Byte) : State :=
  ((s.noteWrite a v).setByte a (pick (Config.hostWriteChoice s.free) v (s.storedBytes a))).bumpFree.answer .ack

/-- A byte write of the running command may be in flight: a PROCESS past its issue checks with a byte left
to do, whose byte step raises no error before its write (70_reset_and_hazards R201, 42_process R133). -/
def State.mayWrite (s : State) : Bool :=
  s.dev.busy && decide (decodeCmd s.dev.curCmd = .process) && s.dev.procChecked &&
    decide (s.dev.curI.toNat < s.dev.curLen.toNat) && s.dev.hasKeystream && !s.accessFails s.dev.srcAddr

/-- The memory effect of a reset: the byte whose write is in flight, if one is, holds any value
(70_reset_and_hazards R201; log 9). -/
def State.dropWrite (s : State) : State :=
  if s.mayWrite && Config.writeInFlight s.free then
    s.engineSet s.dev.dstAddr (Config.resetByte s.free)
  else s

/-- The reset input of the device: every element takes its reset value, and a command in progress is
abandoned with no completion code (70_reset_and_hazards R200, R201). -/
def State.resetDevice (s : State) : State :=
  s.dropWrite.bumpFree.withDev (Device.reset s.dev.base s.dev.policy)

end Sys2Proof.Machine
end

