-- ==== Sys2Proof/Machine/Fetch.lean ====
section
/-! DEFINITION. What the next step does: whose turn it is, and the instruction that agent fetches. The
block fetches no instructions (20_memory R65): the engine decodes its latched CUR_CMD, and the host
makes its next operation. -/

namespace Sys2Proof.Machine

/-- The next step: run an instruction on device number `k`, from the state in which that device is the
one `exec` acts on; or a step that is no instruction, with its result. -/
inductive Fetch where
  | run (k : Nat) (i : Instr) (s : State)
  | done (s : State)
deriving DecidableEq, Repr

/-- Device number `k`: 0 is `dev`, the others are the peers. -/
def State.device? (s : State) : Nat → Option Device
  | 0 => some s.dev
  | k + 1 => s.peers[k]?

/-- The state in which device number `k` and `dev` have changed places; the same operation puts them
back. -/
def State.focus (s : State) : Nat → State
  | 0 => s
  | k + 1 =>
    match s.peers[k]? with
    | some d => { s with dev := d, peers := s.peers.set k s.dev }
    | none => s

/-- The address is in the device's window (20_memory R52). -/
def Device.owns (d : Device) (addr : Word) : Bool := decide ((addr - d.base).toNat < 256)

/-- The device whose window holds the address. DESIGN CHOICE: an access is located by the address of its
first byte alone, so one that begins below a window and runs into it reaches no block (log 30). -/
def State.locate (s : State) (addr : Word) : Option Nat :=
  (s.dev :: s.peers).findIdx? fun d => d.owns addr

/-- The access descriptor `W ++ OFFSET` of an access of the device's window (30_encoding R70). -/
def Device.descriptorOf (d : Device) (write : Bool) (addr : Word) : Descriptor :=
  BitVec.ofBool write ++ (addr - d.base).setWidth 8

/-- Who takes the next step: as scheduled; when nothing is scheduled, a busy engine, else the host. So
an engine with a command in progress takes its next step in the end (70_reset_and_hazards R212). -/
def State.turn (s : State) : Agent :=
  match s.sched with
  | a :: _ => a
  | [] =>
    match (s.dev :: s.peers).findIdx? fun d => d.busy with
    | some k => .engine k
    | none => .host

/-- The engine of device number `k` executes its latched command; an idle engine does nothing
(70_reset_and_hazards R204, 60_exceptions R184). -/
def fetchEngine (s : State) (k : Nat) : Fetch :=
  match s.device? k with
  | some d => if d.busy then .run k (decodeCmd d.curCmd) (s.focus k) else .done s
  | none => .done s

/-- One host access: in a window, a 32-bit access is the instruction of its descriptor and any other
size gets the host bus error (20_memory R51); outside every window it reaches no block (R52; log 15,
log 30). -/
def fetchAccess (s : State) (write : Bool) (size : AccessSize) (addr data : Word) : Fetch :=
  match s.locate addr with
  | none => .done (s.answer .notClaimed)
  | some k =>
    if size ≠ .word then .done s.hostBusError
    else .run k (decodeMmio ((s.focus k).dev.descriptorOf write addr) data) (s.focus k)

/-- WAIT: a STATUS read of the window at `base`, which stays the host's next operation while BUSY = 1
(30_encoding R84). -/
def fetchWait (s : State) (base : Word) (rest : List HostOp) : Fetch :=
  match s.locate base with
  | none => .done ({ s with hostQ := rest }.answer .notClaimed)
  | some k =>
    if (s.focus k).dev.busy then .run k .rdStatus (s.focus k)
    else .run k .rdStatus ({ s with hostQ := rest }.focus k)

/-- The reset input of the device whose window is at `base`; with no such device nothing happens. -/
def fetchReset (s : State) (base : Word) : Fetch :=
  match s.locate base with
  | none => .done s
  | some k => .done (((s.focus k).resetDevice).focus k)

/-- The host makes its next operation, if it has one. -/
def fetchHost (s : State) : Fetch :=
  match s.hostQ with
  | [] => .done s
  | .access write size addr data :: rest => fetchAccess { s with hostQ := rest } write size addr data
  | .wait base :: rest => fetchWait s base rest
  | .memRead addr :: rest => .done ({ s with hostQ := rest }.hostRead addr)
  | .memWrite addr v :: rest => .done ({ s with hostQ := rest }.hostWrite addr v)
  | .resetInput base :: rest => fetchReset { s with hostQ := rest } base

/-- The next step of the machine; it uses up one entry of the schedule. -/
def State.fetch (s : State) : Fetch :=
  match s.turn with
  | .engine k => fetchEngine { s with sched := s.sched.tail } k
  | .host => fetchHost { s with sched := s.sched.tail }

/-- The outcome with its next state changed by `f`. -/
def mapNext (f : State → State) : Host.Outcome State Fault Refusal → Host.Outcome State Fault Refusal
  | .next s => .next (f s)
  | .fault r => .fault r
  | .refused r => .refused r

/-- The command word is the latched command of `dev`, which is busy and takes the next step. -/
def State.placeCmd (s : State) (w : Word) : State :=
  { s with dev := { s.dev with curCmd := w, busy := true }, sched := .engine 0 :: s.sched }

/-- The access of the window of `dev` is the host's next operation, and the host takes the next step. -/
def State.placeAccess (s : State) (a : Descriptor) (data : Word) : State :=
  { s with
    hostQ := .access a.msb .word (s.dev.base + (a.extractLsb' 0 8).setWidth 32) data :: s.hostQ
    sched := .host :: s.sched }

/-- The words placed where the next step fetches them (log 3). -/
def State.place (s : State) : Enc → State
  | .cmd w => s.placeCmd w
  | .mmio a data => s.placeAccess a data

end Sys2Proof.Machine
end

