-- ==== Sys2Proof/Machine/Step.lean ====
section
/-! DEFINITION. One step of the machine, and an instruction placed where the next step fetches it. -/

namespace Sys2Proof.Machine

/-- One step: the agent whose turn it is runs the instruction it fetches on its device, or makes a step
that is no instruction. -/
def step (s : State) : Host.Outcome State Fault Refusal :=
  match s.fetch with
  | .run k i s1 => mapNext (fun t => t.focus k) (exec i s1)
  | .done s1 => .next s1

/-- The state with the instruction of `nbits` bits `w` placed where the next step fetches it; unchanged
where no format has such bits (log 3, log 21). -/
def State.withFetchWord (s : State) (nbits w : Nat) : State :=
  match encOfBits nbits w with
  | .ok e => s.place e
  | .error _ => s

end Sys2Proof.Machine
end

