-- ==== Sys2Proof/Machine/Assembler.lean ====
section
/-! DEFINITION. The spec's notation for host programs: its statements and pseudo-instructions as the
host operations they stand for (30_encoding R83, R84). -/

namespace Sys2Proof.Machine

/-- `WR <reg>, <imm32>` on the window at `base`, the register by its offset (30_encoding R83). -/
def wr (base : Word) (offset : BitVec 8) (imm : Word) : HostOp :=
  .access true .word (base + offset.setWidth 32) imm

/-- `RD <reg> -> <name>` on the window at `base`: the value read is the response (30_encoding R83). -/
def rd (base : Word) (offset : BitVec 8) : HostOp :=
  .access false .word (base + offset.setWidth 32) 0

/-- `CMD <mnemonic> klen ivlen`: a write of CMD with the word of its fields (30_encoding R83). -/
def cmd (base : Word) (op : BitVec 4) (klen ivlen : BitVec 5) : HostOp :=
  wr base 0x00 (cmdWord op klen ivlen)

/-- `ENCRYPT` is `CMD PROCESS` (30_encoding R84). -/
def encryptStmt (base : Word) : HostOp := cmd base 4 0 0

/-- `DECRYPT` is `CMD PROCESS` (30_encoding R84). -/
def decryptStmt (base : Word) : HostOp := cmd base 4 0 0

/-- `LOADKEY <32 hex digits>`: four writes, each word big-endian (30_encoding R84). -/
def loadKey (base : Word) (key : Quad) : List HostOp :=
  [wr base 0x20 (wordAt key 0), wr base 0x24 (wordAt key 1), wr base 0x28 (wordAt key 2),
   wr base 0x2C (wordAt key 3)]

/-- `LOADIV <32 hex digits>`: four writes (30_encoding R84). -/
def loadIv16 (base : Word) (iv : Quad) : List HostOp :=
  [wr base 0x30 (wordAt iv 0), wr base 0x34 (wordAt iv 1), wr base 0x38 (wordAt iv 2),
   wr base 0x3C (wordAt iv 3)]

/-- `LOADIV <16 hex digits>`: two writes (30_encoding R84). -/
def loadIv8 (base : Word) (iv : BitVec 64) : List HostOp :=
  [wr base 0x30 (iv.extractLsb' 32 32), wr base 0x34 (iv.extractLsb' 0 32)]

/-- `SETBUF <src>, <dst>, <len>` (30_encoding R84). -/
def setBuf (base src dst len : Word) : List HostOp :=
  [wr base 0x10 src, wr base 0x14 dst, wr base 0x18 len]

/-- `INIT <key>, <iv>` with a 16-byte IV (30_encoding R84). -/
def init16 (base : Word) (key iv : Quad) : List HostOp :=
  loadKey base key ++ loadIv16 base iv ++ [cmd base 1 16 16, .wait base]

/-- `INIT <key>, <iv>` with an 8-byte IV (30_encoding R84). -/
def init8 (base : Word) (key : Quad) (iv : BitVec 64) : List HostOp :=
  loadKey base key ++ loadIv8 base iv ++ [cmd base 1 16 8, .wait base]

end Sys2Proof.Machine
end

