-- ==== Sys2Proof/Safety.lean ====
section
/-! DEFINITION. What counts as a good state and a good run, in the terms the statements use. -/

namespace Sys2Proof

/-- The instruction is PROCESS, under any of its names (30_encoding R84). -/
def Instr.isProcess (i : Instr) : Prop := i = .process ∨ i = .encrypt ∨ i = .decrypt

/-- The instruction is an initialization command (40_init). -/
def Instr.isInit (i : Instr) : Prop :=
  (∃ kl il, i = .initIv kl il) ∨ (∃ kl il, i = .initRand kl il) ∨ ∃ il, i = .setIv il

/-- The instruction is a command, which the engine executes, and no window access (30_encoding R70). -/
def Instr.isCommand (i : Instr) : Prop :=
  i.isInit ∨ i.isProcess ∨ i = .updateIv ∨ ∃ w, i = .illegalCmd w

end Sys2Proof

namespace Sys2Proof.Machine

/-- The relations between one device's registers that hold in every reachable state: 10_state R28, the
alignment of its window (20_memory R52), and what its engine state means (10_state R40, 42_process R131). -/
structure Device.Inv (d : Device) : Prop where
  /-- OFF ∈ 1..16 (R28). -/
  off_pos : d.off ≠ 0
  /-- In W8 the low half of IV is 0 (R22, R28). -/
  w8_low : d.mode = .w8 → d.iv.extractLsb' 0 64 = 0
  /-- Before initialization OFF = 16 and BLKCNT = 0 (R28). -/
  none_idle : d.mode = .none → d.off = 16 ∧ d.blkcnt = 0
  /-- The window is 256-byte aligned (R52). -/
  base_aligned : d.base.extractLsb' 0 8 = 0
  /-- CUR_KEY is 0 when no command is in progress (R40, R43). -/
  idle_key : d.busy = false → d.curKey = 0
  /-- Only a command in progress has passed the issue checks of PROCESS. -/
  checked_busy : d.procChecked = true → d.busy = true
  /-- A PROCESS past its issue checks is initialized and does not wrap (R131). -/
  checked_ok : d.procChecked = true → d.mode ≠ .none ∧ d.rangeWraps = false
  /-- It has done at most all of its bytes (R132). -/
  checked_i : d.procChecked = true → d.curI.toNat ≤ d.curLen.toNat

/-- Every device meets its invariant, and the memory has its canonical form. -/
structure State.Inv (s : State) : Prop where
  dev : s.dev.Inv
  peers : ∀ d ∈ s.peers, d.Inv
  mem : s.mem.wf = true

/-- The keystream cache is a function of KEY, MODE, IV and BLKCNT whenever it may be read
(10_state R29). -/
def Device.KsConsistent (d : Device) : Prop :=
  d.off ≠ 16 → d.ks = Config.blockEncrypt d.key (counterBlock d.mode d.iv (d.blkcnt - 1))

/-- `T` bytes of the current sample have been processed (42_process R137, 10_state R29): the block
count, the cursor, and the cached block when one is in use. -/
structure Device.SampleAt (d : Device) (T : Nat) : Prop where
  /-- BLKCNT = ceil(T / 16) mod 2^128. -/
  blkcnt : d.blkcnt = BitVec.ofNat 128 ((T + 15) / 16)
  /-- OFF = 16 if T = 0, and ((T − 1) mod 16) + 1 otherwise. -/
  off : d.off.val = if T = 0 then 16 else (T - 1) % 16 + 1
  /-- A block in use is the one of index floor(T / 16). -/
  ks : T % 16 ≠ 0 → d.ks = Config.blockEncrypt d.key (counterBlock d.mode d.iv (BitVec.ofNat 128 (T / 16)))

/-- The keystream byte at sample position `t` (42_process R139). -/
def Device.streamByte (d : Device) (t : Nat) : Byte :=
  byteAt (Config.blockEncrypt d.key (counterBlock d.mode d.iv (BitVec.ofNat 128 (t / 16)))) (t % 16)

/-- The six elements of the cipher state are the same (10_state R20). -/
def Device.sameCipher (d e : Device) : Prop :=
  e.key = d.key ∧ e.mode = d.mode ∧ e.iv = d.iv ∧ e.blkcnt = d.blkcnt ∧ e.ks = d.ks ∧ e.off = d.off

/-- No host write races the command the device runs (20_memory R63). -/
def State.unraced (s : State) : Prop := ∀ w, s.ownWindow = some w → w.wrote = []

/-- The platform answers every engine access of the `n` bytes from `base` on without an error
(42_process R141). -/
def State.admitsRange (s : State) (base : Word) (n : Nat) : Prop :=
  ∀ i < n, s.admits (base + BitVec.ofNat 32 i) = true

/-- The platform has no error answers to come. -/
def State.noBusErrors (s : State) : Prop := ∀ b ∈ s.busAnswers, b = false

/-- A byte step of PROCESS is due: past the issue checks, initialized, with a byte left (42_process R132). -/
def Device.byteDue (d : Device) : Prop :=
  d.procChecked = true ∧ d.mode ≠ .none ∧ d.curI.toNat < d.curLen.toNat

/-- The instruction `n` times, stopping at a fault or a refusal. -/
def execTimes (i : Instr) : Nat → State → Host.Outcome State Fault Refusal
  | 0, s => .next s
  | n + 1, s =>
    match exec i s with
    | .next t => execTimes i n t
    | .fault r => .fault r
    | .refused r => .refused r

/-- A host that keeps to the busy protocol and to the access rules: no CMD write was dropped
(70_reset_and_hazards R205; 93 U19) and no access got a bus error (20_memory R51). A claim that a
host's commands run is to be made of such states only. -/
def State.hostKeepsRules (s : State) : Prop :=
  s.dev.ovr = false ∧ (∀ d ∈ s.peers, d.ovr = false) ∧ s.hostFault = false

end Sys2Proof.Machine
end

