-- ==== Sys2Proof/Certificates/Slice0/Obligations.lean ====
section
/-! DEFINITION. The statements for the provers. Each is about every state unless it says otherwise, and
names the rule or section of spec/ that it formalises. -/

open Sys2Proof Sys2Proof.Machine

/-! ## Encoding -/

/-- 30_encoding R81: the canonical command words decode as the table says. -/
def Obligations.CanonicalWordsDecode : Prop :=
  decodeCmd 0x00002101 = .initIv 16 16 ∧ decodeCmd 0x00001101 = .initIv 16 8 ∧
  decodeCmd 0x00002102 = .initRand 16 16 ∧ decodeCmd 0x00001102 = .initRand 16 8 ∧
  decodeCmd 0x00002003 = .setIv 16 ∧ decodeCmd 0x00001003 = .setIv 8 ∧
  decodeCmd 0x00000004 = .process ∧ decodeCmd 0x00000005 = .updateIv ∧
  decodeCmd 0x000020D1 = .initIv 13 16 ∧ decodeCmd 0x00001E03 = .setIv 15

/-- 30_encoding section 5: each descriptor of the table decodes to its row's access, the indexed ones
(bits 3:2 the index) at every index, with every data word. -/
def Obligations.DescriptorsDecode : Prop :=
  ∀ (d : Word) (k : BitVec 2),
    decodeMmio 0x100 d = .wrCmd d ∧ decodeMmio 0x004 d = .rdStatus ∧ decodeMmio 0x104 d = .wrStatus d ∧
    decodeMmio 0x008 d = .rdBlkoff ∧ decodeMmio 0x110 d = .wrSrc d ∧ decodeMmio 0x114 d = .wrDst d ∧
    decodeMmio 0x118 d = .wrLen d ∧ decodeMmio 0x010 d = .rdSrc ∧ decodeMmio 0x014 d = .rdDst ∧
    decodeMmio 0x018 d = .rdLen ∧
    decodeMmio (0b00100#5 ++ k ++ 0b00#2) d = .rdIvOut k ∧
    decodeMmio (0b10010#5 ++ k ++ 0b00#2) d = .wrKeyIn k d ∧
    decodeMmio (0b10011#5 ++ k ++ 0b00#2) d = .wrIvIn k d ∧
    decodeMmio (0b00011#5 ++ k ++ 0b00#2) d = .rdIvIn k

/-- Decoding an instruction's words gives the instruction back, for every well-formed instruction and
every operand; ENCRYPT and DECRYPT are names of PROCESS. -/
def Obligations.DecodeEncodeRoundTrip : Prop :=
  ∀ i : Instr, i.WellFormed = true → decode (encode i) = i.canon

/-- Encoding what the decoder gives returns the words, for every word of both formats. -/
def Obligations.EncodeDecodeRoundTrip : Prop :=
  ∀ e : Enc, e.WellFormed = true → encode (decode e) = e

/-- The decoder gives only well-formed instructions. -/
def Obligations.DecodedIsWellFormed : Prop :=
  ∀ e : Enc, (decode e).WellFormed = true

/-- 30_encoding R75, R76, R77: a latched word with RSV ≠ 0, a reserved OP, or a nonzero field that its
command does not use fails with ILLEGAL_CMD when the engine steps, and changes no cipher state. -/
def Obligations.IllegalWordFails : Prop :=
  ∀ s : State, s.turn = .engine 0 → s.dev.busy = true →
    (s.dev.curCmd.extractLsb' 14 18 ≠ 0 ∨
      s.dev.curCmd.extractLsb' 0 4 = 0 ∨ 6 ≤ (s.dev.curCmd.extractLsb' 0 4).toNat ∨
      (s.dev.curCmd.extractLsb' 0 4 = 3 ∧ s.dev.curCmd.extractLsb' 4 5 ≠ 0) ∨
      ((s.dev.curCmd.extractLsb' 0 4 = 4 ∨ s.dev.curCmd.extractLsb' 0 4 = 5) ∧
        (s.dev.curCmd.extractLsb' 4 5 ≠ 0 ∨ s.dev.curCmd.extractLsb' 9 5 ≠ 0))) →
    ∃ t, step s = .next t ∧ t.dev.err = .illegalCmd ∧ t.dev.errseen = true ∧ t.dev.busy = false ∧
      s.dev.sameCipher t.dev ∧ t.mem = s.mem

/-! ## Reset -/

/-- 10_state R43: the reset input of a device sets every element of it to the value of the table, in one
step, at any time, and changes no other device. Its parameters MMIO_BASE and W8_OVERFLOW_POLICY are no
state and stay. -/
def Obligations.ResetSetsEveryElement : Prop :=
  ∀ (s : State) (k : Nat) (d : Device) (addr : Word) (rest : List HostOp),
    s.turn = .host → s.hostQ = .resetInput addr :: rest → s.locate addr = some k → s.device? k = some d →
    ∃ t, step s = .next t ∧ t.hostQ = rest ∧ (∀ j, j ≠ k → t.device? j = s.device? j) ∧
      t.device? k = some
              { base := d.base, policy := d.policy, key := 0, mode := .none, iv := 0,
                blkcnt := 0, ks := 0, off := 16, busy := false, err := .ok, errseen := false,
                ovr := false, src := 0, dst := 0, len := 0, keyIn := ⟨0, 0, 0, 0⟩,
                ivIn := ⟨0, 0, 0, 0⟩, curCmd := 0, curSrc := 0, curDst := 0, curLen := 0,
                curKey := 0, curIv := 0, curI := 0, procChecked := false }

/-- 70_reset_and_hazards section 1 (the memory at a reset): no byte changes, but, during a PROCESS past
its issue checks, the destination byte of the next byte step, where that step raises no error before its
write (which byte can be in flight rests on logs 9 and 11). -/
def Obligations.ResetKeepsMemory : Prop :=
  ∀ (s : State) (k : Nat) (d : Device) (addr : Word) (rest : List HostOp) (a : Nat),
    s.turn = .host → s.hostQ = .resetInput addr :: rest → s.locate addr = some k → s.device? k = some d →
    (d.busy = true → d.procChecked = true → d.curI.toNat < d.curLen.toNat →
      decodeCmd d.curCmd = .process → (∃ ks, d.nextKeystream = .ok ks) → s.accessFails d.srcAddr = false →
      a ≠ d.dstAddr.toNat) →
    ∃ t, step s = .next t ∧ t.mem.read a = s.mem.read a

/-- 70_reset_and_hazards section 1: every register read of the window is answered with 0 right after
reset. -/
def Obligations.ResetReadsZero : Prop :=
  ∀ k : BitVec 6,
    ∃ t, exec (decodeMmio ((0 : BitVec 1) ++ k ++ (0 : BitVec 2)) 0) State.reset = .next t ∧
      t.resp = .data 0

/-- The machine right after reset meets the invariants the steps keep. -/
def Obligations.ResetMeetsInvariants : Prop :=
  State.reset.Inv ∧ State.reset.dev.KsConsistent

/-! ## Whole-machine rules -/

/-- 10_state section 1: every step of the machine keeps the register invariants of R28 in every device
(OFF in 1..16, low half of IV zero in W8, nothing counted before initialization), the meaning of the
engine's own state, and the canonical form of memory. -/
def Obligations.StepKeepsInvariant : Prop :=
  ∀ s t : State, s.Inv → step s = .next t → t.Inv

/-- 10_state section 1 (R29): every step keeps the keystream cache a function of KEY, MODE, IV and
BLKCNT, in every device. -/
def Obligations.StepKeepsKeystream : Prop :=
  ∀ s t : State, s.Inv → s.dev.KsConsistent → (∀ d ∈ s.peers, d.KsConsistent) → step s = .next t →
    t.dev.KsConsistent ∧ ∀ d ∈ t.peers, d.KsConsistent

/-- 60_exceptions section 1: no error is fatal and no event stops the block; every step of every state
answers a next state. -/
def Obligations.StepAlwaysAnswers : Prop :=
  ∀ s : State, ∃ t, step s = .next t

/-- 60_exceptions section 6 (R180): a step of one device's engine changes no other device. -/
def Obligations.DevicesIsolated : Prop :=
  ∀ (s t : State) (k j : Nat), s.turn = .engine k → j ≠ k → step s = .next t → t.device? j = s.device? j

/-- 10_state sections 1, 2 and 3: which instructions write which elements, for every element of a device,
and when; an element that an instruction changes is changed as here. The parameters never change. -/
def Obligations.StateWriters : Prop :=
  ∀ (i : Instr) (s t : State), exec i s = .next t →
    (t.dev.key ≠ s.dev.key → (∃ il, i = .initIv 16 il ∨ i = .initRand 16 il) ∧ t.dev.err = .ok) ∧
    (t.dev.mode ≠ s.dev.mode → i.isInit ∧ t.dev.err = .ok) ∧
    (t.dev.iv ≠ s.dev.iv → (i.isInit ∨ i = .updateIv) ∧ t.dev.err = .ok) ∧
    (t.dev.blkcnt ≠ s.dev.blkcnt →
      ((i.isInit ∨ i = .updateIv) ∧ t.dev.err = .ok) ∨ (i.isProcess ∧ s.dev.off = 16)) ∧
    (t.dev.ks ≠ s.dev.ks → i.isProcess ∧ s.dev.off = 16) ∧
    (t.dev.off ≠ s.dev.off → ((i.isInit ∨ i = .updateIv) ∧ t.dev.err = .ok) ∨ i.isProcess) ∧
    (t.dev.busy ≠ s.dev.busy →
      (i.isCommand ∧ t.dev.busy = false) ∨ ((∃ w, i = .wrCmd w) ∧ t.dev.busy = true)) ∧
    (t.dev.err ≠ s.dev.err → i.isCommand ∧ t.dev.busy = false) ∧
    (t.dev.errseen ≠ s.dev.errseen →
      (i.isCommand ∧ t.dev.busy = false ∧ t.dev.err ≠ .ok ∧ t.dev.errseen = true) ∨
      ∃ w : Word, i = .wrStatus w ∧ w.getLsbD 12 = true ∧ t.dev.errseen = false) ∧
    (t.dev.ovr ≠ s.dev.ovr →
      ((∃ w, i = .wrCmd w) ∧ s.dev.busy = true ∧ t.dev.ovr = true) ∨
      ∃ w : Word, i = .wrStatus w ∧ w.getLsbD 13 = true ∧ t.dev.ovr = false) ∧
    (t.dev.src ≠ s.dev.src → ∃ d, i = .wrSrc d) ∧
    (t.dev.dst ≠ s.dev.dst → ∃ d, i = .wrDst d) ∧
    (t.dev.len ≠ s.dev.len → ∃ d, i = .wrLen d) ∧
    (t.dev.keyIn ≠ s.dev.keyIn →
      (∃ k d, i = .wrKeyIn k d) ∨ ((∃ w, i = .wrCmd w) ∧ s.dev.busy = false)) ∧
    (t.dev.ivIn ≠ s.dev.ivIn → ∃ k d, i = .wrIvIn k d) ∧
    (t.dev.curCmd ≠ s.dev.curCmd ∨ t.dev.curSrc ≠ s.dev.curSrc ∨ t.dev.curDst ≠ s.dev.curDst ∨
        t.dev.curLen ≠ s.dev.curLen ∨ t.dev.curIv ≠ s.dev.curIv →
      (∃ w, i = .wrCmd w) ∧ s.dev.busy = false) ∧
    (t.dev.curKey ≠ s.dev.curKey →
      ((∃ w, i = .wrCmd w) ∧ s.dev.busy = false) ∨ (i.isCommand ∧ t.dev.busy = false ∧ t.dev.curKey = 0)) ∧
    (t.dev.curI ≠ s.dev.curI → ((∃ w, i = .wrCmd w) ∧ s.dev.busy = false) ∨ i.isProcess) ∧
    t.dev.base = s.dev.base ∧ t.dev.policy = s.dev.policy

/-- 20_memory section 1: a window read changes no device and no byte of memory. -/
def Obligations.WindowReadsChangeNothing : Prop :=
  ∀ (s t : State) (a : Descriptor) (d : Word), a.msb = false → exec (decodeMmio a d) s = .next t →
    t.dev = s.dev ∧ t.peers = s.peers ∧ t.mem = s.mem

/-- 10_state section 1 (R21) and 60_exceptions section 5: no read of the window tells anything of KEY, of
its staging registers, of its latch, of KS or of BLKCNT: the same access answers the same value
whatever they hold. The reads that are unspecified while BUSY = 1 are left out then: nothing is said of
a free value (log 7). -/
def Obligations.KeyIsNotReadable : Prop :=
  ∀ (s : State) (a : Descriptor) (d : Word) (key ks blkcnt curKey : Quad) (keyIn : Words4),
    a.msb = false →
    (s.dev.busy = false ∨
      (decodeMmio a d ≠ .rdStatus ∧ decodeMmio a d ≠ .rdBlkoff ∧ ∀ k, decodeMmio a d ≠ .rdIvOut k)) →
    ∃ t t', exec (decodeMmio a d) s = .next t ∧
      exec (decodeMmio a d) (s.withDev { s.dev with
        key := key, ks := ks, blkcnt := blkcnt, curKey := curKey, keyIn := keyIn }) = .next t' ∧
      t'.resp = t.resp

/-! ## Steps -/

/-- 70_reset_and_hazards section 3: when it is a busy engine's turn, the step is the exec of the
instruction its latched word decodes to, on that device, with the schedule moved on. -/
def Obligations.EngineStepRunsCommand : Prop :=
  ∀ (s : State) (k : Nat) (d : Device), s.turn = .engine k → s.device? k = some d → d.busy = true →
    step s = mapNext (fun t => t.focus k)
      (exec (decodeCmd d.curCmd) ({ s with sched := s.sched.tail }.focus k))

/-- 20_memory section 1 and 30_encoding section 5: when it is the host's turn, its 32-bit access of a
window is the exec of the instruction its descriptor decodes to, on that window's device. -/
def Obligations.HostStepRunsAccess : Prop :=
  ∀ (s : State) (k : Nat) (d : Device) (wr : Bool) (addr data : Word) (rest : List HostOp),
    s.turn = .host → s.hostQ = .access wr .word addr data :: rest → s.locate addr = some k →
    s.device? k = some d →
    step s = mapNext (fun t => t.focus k)
      (exec (decodeMmio (BitVec.ofBool wr ++ (addr - d.base).setWidth 8) data)
        ({ s with sched := s.sched.tail, hostQ := rest }.focus k))

/-- 60_exceptions section 7 (R184) and 20_memory section 1: a turn with nothing to do changes nothing but
the schedule, and an access outside every window reaches no block. That it is answered notClaimed is the
model's choice (log 15), and so is that an access which begins below a window and runs into it is outside
it (log 30); an idle turn as a step is the model's reading (log 20). -/
def Obligations.IdleSteps : Prop :=
  ∀ s : State,
    (s.turn = .host → s.hostQ = [] → step s = .next { s with sched := s.sched.tail }) ∧
    (∀ k d, s.turn = .engine k → s.device? k = some d → d.busy = false →
      step s = .next { s with sched := s.sched.tail }) ∧
    (∀ wr size addr data rest, s.turn = .host → s.hostQ = .access wr size addr data :: rest →
      s.locate addr = none →
      step s = .next { s with sched := s.sched.tail, hostQ := rest, resp := .notClaimed })

/-- 20_memory R51: a window access of another size than 32 bits, or at an offset that is no multiple of
4, gets a bus error response, which returns no data, is a fault of the host, and has no effect on any
block or on memory. The flag that stands for the host's fault, and the sizes other than 32 bits,
are the model's choice (logs 13, 32). -/
def Obligations.BadAccessIsBusError : Prop :=
  ∀ (s : State) (k : Nat) (d : Device) (wr : Bool) (size : AccessSize) (addr data : Word)
    (rest : List HostOp),
    s.turn = .host → s.hostQ = .access wr size addr data :: rest → s.locate addr = some k →
    s.device? k = some d → (size ≠ .word ∨ (addr - d.base).toNat % 4 ≠ 0) →
    step s = .next { s with sched := s.sched.tail, hostQ := rest, resp := .busError, hostFault := true }

/-- 30_encoding section 6 (WAIT): a STATUS read of the window, which stays the host's next operation
while BUSY = 1 and is used up when BUSY = 0. -/
def Obligations.WaitPollsStatus : Prop :=
  ∀ (s : State) (k : Nat) (d : Device) (base : Word) (rest : List HostOp),
    s.turn = .host → s.hostQ = .wait base :: rest → s.locate base = some k → s.device? k = some d →
    ∃ t v, step s = .next t ∧ t.resp = .data v ∧ v.getLsbD 0 = d.busy ∧
      (∀ j, t.device? j = s.device? j) ∧ t.mem = s.mem ∧
      t.hostQ = if d.busy then .wait base :: rest else rest

/-! ## Window accesses -/

/-- 70_reset_and_hazards section 3 (R204): a CMD write while BUSY = 0 latches the word and every staging
register, clears KEY_IN for OP 1 and 2, and sets BUSY; everything else of the device stays. -/
def Obligations.CmdWriteAccepts : Prop :=
  ∀ (s : State) (w : Word), s.dev.busy = false →
    ∃ t, exec (.wrCmd w) s = .next t ∧
      t.dev = { s.dev with
        curCmd := w, curSrc := s.dev.src, curDst := s.dev.dst, curLen := s.dev.len,
        curKey := s.dev.keyIn.w0 ++ s.dev.keyIn.w1 ++ s.dev.keyIn.w2 ++ s.dev.keyIn.w3,
        curIv := s.dev.ivIn.w0 ++ s.dev.ivIn.w1 ++ s.dev.ivIn.w2 ++ s.dev.ivIn.w3,
        curI := 0,
        keyIn := (if w.extractLsb' 0 4 = 1 ∨ w.extractLsb' 0 4 = 2 then ⟨0, 0, 0, 0⟩ else s.dev.keyIn),
        busy := true, procChecked := false } ∧
      t.peers = s.peers ∧ t.mem = s.mem ∧ t.resp = .ack

/-- 70_reset_and_hazards R205: a CMD write while BUSY = 1 is dropped; its only effect is OVR ← 1. -/
def Obligations.CmdWriteDropped : Prop :=
  ∀ (s : State) (w : Word), s.dev.busy = true →
    exec (.wrCmd w) s = .next { s with dev := { s.dev with ovr := true }, resp := .ack }

/-- 70_reset_and_hazards R206: a staging write is stored at once, busy or not, and changes nothing else,
so no latch of a command in progress. -/
def Obligations.StagingWritesStore : Prop :=
  ∀ (s : State) (k : BitVec 2) (d : Word),
    exec (.wrSrc d) s = .next { s with dev := { s.dev with src := d }, resp := .ack } ∧
    exec (.wrDst d) s = .next { s with dev := { s.dev with dst := d }, resp := .ack } ∧
    exec (.wrLen d) s = .next { s with dev := { s.dev with len := d }, resp := .ack } ∧
    exec (.wrKeyIn k d) s = .next { s with dev := { s.dev with keyIn := s.dev.keyIn.set k d }, resp := .ack } ∧
    exec (.wrIvIn k d) s = .next { s with dev := { s.dev with ivIn := s.dev.ivIn.set k d }, resp := .ack }

/-- 10_state section 2 (R36, R37), 20_memory R55: staging byte `4k + j` is byte `j`, from the most
significant, of register `k`, and it is byte `4k + j` of the 128-bit operand; a write of one register of
four stores in that register and no other. -/
def Obligations.StagingBytePacking : Prop :=
  (∀ (q : Words4) (k : BitVec 2) (j : Nat), j < 4 →
    byteAt q.cat (4 * k.toNat + j) = (q.get k).extractLsb' (24 - 8 * j) 8) ∧
  ∀ (q : Words4) (k j : BitVec 2) (v : Word), (q.set k v).get j = if j = k then v else q.get j

/-- 10_state section 2 (R35, R37): SRC, DST, LEN and IV_IN read what they hold, busy or not, and a read
changes nothing but the response. -/
def Obligations.StagingReadsAnswer : Prop :=
  ∀ (s : State) (k : BitVec 2),
    exec .rdSrc s = .next { s with resp := .data s.dev.src } ∧
    exec .rdDst s = .next { s with resp := .data s.dev.dst } ∧
    exec .rdLen s = .next { s with resp := .data s.dev.len } ∧
    exec (.rdIvIn k) s = .next { s with resp := .data (s.dev.ivIn.get k) }

/-- 10_state section 2 (R33): what a STATUS read returns with BUSY = 0, field by field; it changes no
device, no memory and no peer. -/
def Obligations.StatusReadIdle : Prop :=
  ∀ s : State, s.dev.busy = false →
    ∃ t v, exec .rdStatus s = .next t ∧ t.resp = .data v ∧
      v.getLsbD 0 = false ∧ (v.getLsbD 1 = true ↔ s.dev.mode ≠ .none) ∧
      (v.extractLsb' 2 5).toNat =
        (match s.dev.mode with
          | .none => 0
          | .w8 => 8
          | .w16 => 16) ∧
      v.getLsbD 7 = false ∧
      (v.extractLsb' 8 4).toNat =
        (match s.dev.err with
          | .ok => 0
          | .invalidKeySize => 1
          | .invalidIvSize => 2
          | .notInitialized => 3
          | .ctrOverflow => 4
          | .illegalCmd => 5
          | .addrRange => 6
          | .busError => 7) ∧
      v.getLsbD 12 = s.dev.errseen ∧ v.getLsbD 13 = s.dev.ovr ∧ v.extractLsb' 14 18 = 0 ∧
      t.dev = s.dev ∧ t.peers = s.peers ∧ t.mem = s.mem

/-- 70_reset_and_hazards section 4 (R207): what the reads fix while BUSY = 1; the other fields are free
values. -/
def Obligations.BusyReads : Prop :=
  ∀ (s : State) (k : BitVec 2), s.dev.busy = true →
    (∃ t v, exec .rdStatus s = .next t ∧ t.resp = .data v ∧ v.getLsbD 0 = true ∧ v.getLsbD 7 = false ∧
      v.getLsbD 12 = s.dev.errseen ∧ v.getLsbD 13 = s.dev.ovr ∧ v.extractLsb' 14 18 = 0 ∧ t.dev = s.dev) ∧
    (∃ t v, exec .rdBlkoff s = .next t ∧ t.resp = .data v ∧ v.extractLsb' 4 28 = 0 ∧ t.dev = s.dev) ∧
    (∃ t v, exec (.rdIvOut k) s = .next t ∧ t.resp = .data v ∧ t.dev = s.dev)

/-- 10_state section 2 (R33): a STATUS write clears ERRSEEN by bit 12 and OVR by bit 13, and ignores every
other bit. -/
def Obligations.StatusWriteClears : Prop :=
  ∀ (s : State) (w : Word),
    exec (.wrStatus w) s = .next { s with
      dev := { s.dev with
        errseen := (if w.getLsbD 12 then false else s.dev.errseen),
        ovr := (if w.getLsbD 13 then false else s.dev.ovr) },
      resp := .ack }

/-- 10_state R34: with BUSY = 0, BLKOFF[3:0] reads OFF mod 16 and bits 31:4 read 0; a write is ignored,
busy or not. -/
def Obligations.BlkoffReads : Prop :=
  ∀ s : State,
    (s.dev.busy = false →
      ∃ v : Word, exec .rdBlkoff s = .next { s with resp := .data v } ∧ v.toNat = s.dev.off.val % 16) ∧
    ∀ d : Word, exec (decodeMmio 0x108 d) s = .next { s with resp := .ack }

/-- 10_state R38: with BUSY = 0, IV_OUT `k` reads `IV[127−32k : 96−32k]`, and IV_OUT2 and IV_OUT3 read 0
in W8 (in every state that meets the invariant of StepKeepsInvariant); a write is ignored, busy or not. -/
def Obligations.IvOutReads : Prop :=
  ∀ (s : State) (k : BitVec 2),
    (s.dev.busy = false →
      ∃ v : Word, exec (.rdIvOut k) s = .next { s with resp := .data v } ∧
        v.toNat = s.dev.iv.toNat / 2 ^ (96 - 32 * k.toNat) % 2 ^ 32 ∧
        (s.dev.Inv → s.dev.mode = .w8 → 2 ≤ k.toNat → v = 0)) ∧
    ∀ d : Word, exec (decodeMmio (0x140 ||| ((0 : BitVec 5) ++ k ++ (0 : BitVec 2))) d) s =
      .next { s with resp := .ack }

/-- 10_state section 2 (R39), 30_encoding section 5: any other aligned access reads 0, or is ignored when
written. -/
def Obligations.OtherAccesses : Prop :=
  ∀ (s : State) (a : Descriptor) (d : Word), a.extractLsb' 0 2 = 0 →
    (a.msb = false → exec (.mmioOther a d) s = .next { s with resp := .data 0 }) ∧
    (a.msb = true → exec (.mmioOther a d) s = .next { s with resp := .ack })

/-! ## Completion of a command -/

/-- 60_exceptions R174, R176: all that the completion of a command writes. -/
def Obligations.CompletionWrites : Prop :=
  ∀ (d : Device) (c : ErrCode), d.finish c = { d with
    err := c, errseen := (if c = .ok then d.errseen else true), curKey := 0, busy := false, procChecked := false }

/-- 30_encoding section 2 (R76): every illegal word completes with ILLEGAL_CMD and does nothing else. -/
def Obligations.IllegalCommandCompletes : Prop :=
  ∀ (s : State) (w : Word), exec (.illegalCmd w) s = .next { s with
    dev := { s.dev with
    err := .illegalCmd, errseen := true, curKey := 0, busy := false, procChecked := false } }

/-! ## Initialization -/

/-- 40_init section 2 (INIT_IV): the key length is checked first, then the IV length; success loads KEY
and IV and starts a sample. -/
def Obligations.InitIvResult : Prop :=
  ∀ (s : State) (kl il : BitVec 5),
    exec (.initIv kl il) s = .next { s with
      dev :=
        if kl.toNat ≠ 16 then s.dev.finish .invalidKeySize
      else if il.toNat = 16 then
        ({ s.dev with key := s.dev.curKey, mode := .w16, iv := s.dev.curIv, blkcnt := 0,
                      off := 16 } : Device).finish .ok
      else if il.toNat = 8 then
        ({ s.dev with key := s.dev.curKey, mode := .w8, iv := s.dev.curIv.extractLsb' 64 64 ++ (0 : BitVec 64),
                      blkcnt := 0, off := 16 } : Device).finish .ok
      else s.dev.finish .invalidIvSize }

/-- 40_init section 2 (INIT_RAND): the same checks, with nothing drawn when one fails; success loads KEY
and an IV whose first bytes are the drawn ones, byte 0 the most significant, and whose others are 0. -/
def Obligations.InitRandResult : Prop :=
  ∀ (s : State) (kl il : BitVec 5),
    (kl.toNat ≠ 16 → exec (.initRand kl il) s = .next { s with dev := s.dev.finish .invalidKeySize }) ∧
    (kl.toNat = 16 → il.toNat ≠ 8 → il.toNat ≠ 16 →
      exec (.initRand kl il) s = .next { s with dev := s.dev.finish .invalidIvSize }) ∧
    (kl.toNat = 16 → il.toNat = 8 ∨ il.toNat = 16 →
      ∃ iv : Quad, exec (.initRand kl il) s = .next { s with
          free := s.free + 1,
          dev := ({ s.dev with
            key := s.dev.curKey, mode := (if il.toNat = 8 then .w8 else .w16), iv := iv, blkcnt := 0,
            off := 16 } : Device).finish .ok } ∧
        ∀ j < 16, byteAt iv j = if j < il.toNat then Config.randomByte s.free j else 0)

/-- 40_init section 2 (SET_IV): refused before initialization, then by the IV length; success keeps KEY,
loads the IV with its width and starts a sample. -/
def Obligations.SetIvResult : Prop :=
  ∀ (s : State) (il : BitVec 5),
    exec (.setIv il) s = .next { s with
      dev :=
        if s.dev.mode = .none then s.dev.finish .notInitialized
      else if il.toNat = 16 then
        ({ s.dev with mode := .w16, iv := s.dev.curIv, blkcnt := 0, off := 16 } : Device).finish .ok
      else if il.toNat = 8 then
        ({ s.dev with mode := .w8, iv := s.dev.curIv.extractLsb' 64 64 ++ (0 : BitVec 64), blkcnt := 0,
                      off := 16 } : Device).finish .ok
      else s.dev.finish .invalidIvSize }

/-- 40_init R101: an initialization command that fails a check leaves the cipher state and memory as they
were. -/
def Obligations.FailedInitKeepsCipher : Prop :=
  ∀ (i : Instr) (s t : State),
    ((∃ kl il, i = .initIv kl il ∨ i = .initRand kl il) ∨ ∃ il, i = .setIv il) →
    exec i s = .next t → t.dev.err ≠ .ok → s.dev.sameCipher t.dev ∧ t.mem = s.mem

/-! ## IV advance -/

/-- 43_ivadvance_access R150, R151, R153: UPDATE_IV adds BLKCNT to the 128-bit IV in W16, adds 1 to the
64-bit IV in W8, and fails before initialization; it starts a sample and changes nothing else. -/
def Obligations.UpdateIvResult : Prop :=
  ∀ s : State,
    (s.dev.mode = .none → exec .updateIv s = .next { s with dev := s.dev.finish .notInitialized }) ∧
    (s.dev.mode ≠ .none →
      ∃ iv : Quad, exec .updateIv s = .next { s with
          dev := ({ s.dev with iv := iv, blkcnt := 0, off := 16 } : Device).finish .ok } ∧
        (s.dev.mode = .w16 → iv.toNat = (s.dev.iv.toNat + s.dev.blkcnt.toNat) % 2 ^ 128) ∧
        (s.dev.mode = .w8 → iv.toNat = (s.dev.iv.toNat / 2 ^ 64 + 1) % 2 ^ 64 * 2 ^ 64))

/-- 43_ivadvance_access R156: the test vectors of the advance, after a sample of 4 blocks in W16 and of any
number of blocks in W8. -/
def Obligations.IvAdvanceVectors : Prop :=
  ∀ (s : State) (n : Quad),
    let after := fun (m : Mode) (iv n' : Quad) =>
      exec .updateIv { s with dev := { s.dev with mode := m, iv := iv, blkcnt := n' } }
    (∃ t, after .w16 0 4 = .next t ∧ t.dev.iv = 4) ∧
    (∃ t, after .w16 0x0000000000000000ffffffffffffffff 4 = .next t ∧
      t.dev.iv = 0x00000000000000010000000000000003) ∧
    (∃ t, after .w16 0xfffffffffffffffffffffffffffffffe 4 = .next t ∧ t.dev.iv = 2) ∧
    (∃ t, after .w8 0 n = .next t ∧ t.dev.iv = 0x00000000000000010000000000000000) ∧
    (∃ t, after .w8 0xfffffffffffffffe0000000000000000 n = .next t ∧
      t.dev.iv = 0xffffffffffffffff0000000000000000) ∧
    (∃ t, after .w8 0xffffffffffffffff0000000000000000 n = .next t ∧ t.dev.iv = 0)

/-! ## Counter blocks -/

/-- 41_counter R126: within one sample the counter blocks of different indices differ, in W16 for every
index, in W8 for the indices below 2^64. -/
def Obligations.CounterBlocksDistinct : Prop :=
  ∀ iv n m : Quad, n ≠ m →
    counterBlock .w16 iv n ≠ counterBlock .w16 iv m ∧
    (n.toNat < 2 ^ 64 → m.toNat < 2 ^ 64 → counterBlock .w8 iv n ≠ counterBlock .w8 iv m)

/-- 41_counter R127: in W16 the first counter block of the next sample is the one after the last used; in
W8 the counter blocks of different samples differ while fewer than 2^64 samples pass. -/
def Obligations.NextSampleContinues : Prop :=
  (∀ s t : State, s.dev.mode = .w16 → exec .updateIv s = .next t →
    counterBlock t.dev.mode t.dev.iv 0 = counterBlock s.dev.mode s.dev.iv s.dev.blkcnt) ∧
  (∀ (iv n m b : Quad) (j k : Nat), j < k → k < 2 ^ 64 →
    counterBlock .w8 ((fun v => nextIv .w8 v b)^[j] iv) n ≠
      counterBlock .w8 ((fun v => nextIv .w8 v b)^[k] iv) m)

/-! ## PROCESS -/

/-- 42_process section 1 (R131, R132), 70_reset_and_hazards section 3: the issue checks, MODE first, then
the exact sums; a failure writes no cipher state and makes no memory access, and success starts the bytes
at CUR_I = 0. That success is a step of its own, which sets procChecked and keeps BUSY also when there are
no bytes, is the model's reading (log 11). -/
def Obligations.ProcessIssueChecks : Prop :=
  ∀ s : State, s.dev.procChecked = false →
    exec .process s = .next { s with
      dev :=
        if s.dev.mode = .none then s.dev.finish .notInitialized
      else if s.dev.curSrc.toNat + s.dev.curLen.toNat > 2 ^ 32 ∨
          s.dev.curDst.toNat + s.dev.curLen.toNat > 2 ^ 32 then s.dev.finish .addrRange
      else { s.dev with curI := 0, procChecked := true } }

/-- 42_process section 1 (ByteStep), under PROCESS and both its other names: a byte step whose accesses
are answered and not raced reads source byte CUR_I, stores it XOR the keystream byte, and commits KS,
BLKCNT and OFF; a block is entered when OFF = 16. -/
def Obligations.ByteStepResult : Prop :=
  ∀ (i : Instr) (s : State), (i = .process ∨ i = .encrypt ∨ i = .decrypt) →
    s.dev.byteDue → (s.dev.off = 16 → s.dev.ctrOverflows = false) →
    s.admits s.dev.srcAddr = true → s.admits s.dev.dstAddr = true → s.noBusErrors → s.unraced →
    ∃ t, exec i s = .next t ∧
      (s.dev.off = 16 →
        t.dev = { s.dev with
          ks := Config.blockEncrypt s.dev.key (counterBlock s.dev.mode s.dev.iv s.dev.blkcnt),
          blkcnt := s.dev.blkcnt + 1, off := 1, curI := s.dev.curI + 1 } ∧
        t.mem.read s.dev.dstAddr.toNat = s.mem.read s.dev.srcAddr.toNat ^^^
          byteAt (Config.blockEncrypt s.dev.key (counterBlock s.dev.mode s.dev.iv s.dev.blkcnt)) 0) ∧
      (s.dev.off ≠ 16 →
        t.dev = { s.dev with off := s.dev.off + 1, curI := s.dev.curI + 1 } ∧
        t.mem.read s.dev.dstAddr.toNat = s.mem.read s.dev.srcAddr.toNat ^^^
          byteAt s.dev.ks s.dev.off.val) ∧
      (∀ a, a ≠ s.dev.dstAddr.toNat → t.mem.read a = s.mem.read a) ∧
      t.peers = s.peers ∧ t.hostQ = s.hostQ ∧ t.resp = s.resp ∧ t.hostFault = s.hostFault

/-- 41_counter section 1 (R123), 42_process section 1: a W8 block entry with the sub-counter used up under
FAULT fails with CTR_OVERFLOW; under WRAP, and in W16, the block is entered. -/
def Obligations.OverflowFails : Prop :=
  ∀ s : State, s.dev.byteDue → s.dev.off = 16 →
    (s.dev.mode = .w8 → 2 ^ 64 ≤ s.dev.blkcnt.toNat → s.dev.policy = .fault →
      exec .process s = .next { s with dev := s.dev.finish .ctrOverflow }) ∧
    (s.dev.mode = .w16 ∨ s.dev.blkcnt.toNat < 2 ^ 64 ∨ s.dev.policy = .wrap →
      s.dev.nextKeystream = .ok ⟨Config.blockEncrypt s.dev.key
        (counterBlock s.dev.mode s.dev.iv s.dev.blkcnt), s.dev.blkcnt + 1, 0⟩)

/-- 42_process section 3 (R141): a read that MemAdmit rejects or the platform answers with an error ends
the command with BUS_ERROR and changes no byte; a write answered so ends it too, and only the
destination byte may change. -/
def Obligations.BusErrorEndsCommand : Prop :=
  ∀ s : State, s.dev.byteDue → (s.dev.off = 16 → s.dev.ctrOverflows = false) →
    (s.admits s.dev.srcAddr = false ∨ s.busAnswers.head? = some true →
      ∃ t, exec .process s = .next t ∧ t.dev = s.dev.finish .busError ∧ t.mem = s.mem) ∧
    (s.admits s.dev.srcAddr = true → s.busAnswers.head? ≠ some true →
      (s.admits s.dev.dstAddr = false ∨ s.busAnswers.tail.head? = some true) →
      ∃ t, exec .process s = .next t ∧ t.dev = s.dev.finish .busError ∧
        ∀ a, a ≠ s.dev.dstAddr.toNat → t.mem.read a = s.mem.read a)

/-- 42_process R133: whatever the platform answers and whoever races, a byte step that ends its command
with an error commits none of KS, BLKCNT and OFF, so a block it entered is not counted; no byte but the
destination byte changes, and that one only where the read was answered and the write got the error. -/
def Obligations.FailedByteStepCommitsNothing : Prop :=
  ∀ s t : State, s.dev.byteDue → exec .process s = .next t → t.dev.procChecked = false →
    s.dev.sameCipher t.dev ∧ t.dev.err ≠ .ok ∧ t.dev.curI = s.dev.curI ∧
    (∀ a, a ≠ s.dev.dstAddr.toNat → t.mem.read a = s.mem.read a) ∧
    (t.dev.err ≠ .busError ∨ s.accessFails s.dev.srcAddr = true → t.mem = s.mem)

/-- 60_exceptions section 3 (R176), 42_process section 1: after the last byte PROCESS completes with
ERR = 0, with nothing else changed. -/
def Obligations.ProcessCompletes : Prop :=
  ∀ s : State, s.dev.procChecked = true → s.dev.curLen.toNat ≤ s.dev.curI.toNat →
    exec .process s = .next { s with dev := s.dev.finish .ok }

/-- 42_process section 1 (R134): a PROCESS of no bytes completes with ERR = 0, changes no cipher state, and
makes no memory access. That this takes two engine steps, one for the checks and one to complete, is the
model's reading (log 11). -/
def Obligations.EmptyProcessChangesNothing : Prop :=
  ∀ s : State, s.dev.procChecked = false → s.dev.mode ≠ .none → s.dev.curLen = 0 →
    ∃ t, execTimes .process 2 s = .next t ∧ t.dev.err = .ok ∧ t.dev.busy = false ∧
      s.dev.sameCipher t.dev ∧ t.mem = s.mem ∧ t.busAnswers = s.busAnswers

/-- 42_process section 2 (R137): a byte step that succeeds takes a sample from T bytes to T + 1, so BLKCNT
is ceil(T/16) and OFF is ((T − 1) mod 16) + 1 after T bytes. -/
def Obligations.ByteStepCountsSample : Prop :=
  ∀ (s t : State) (T : Nat), s.dev.byteDue → s.dev.SampleAt T → exec .process s = .next t →
    t.dev.procChecked = true → t.dev.SampleAt (T + 1)

/-- 42_process section 2 (R138): after T bytes of a sample an idle BLKOFF read returns T mod 16. -/
def Obligations.BlkoffCountsBytes : Prop :=
  ∀ (s : State) (T : Nat), s.dev.busy = false → s.dev.SampleAt T →
    ∃ t v, exec .rdBlkoff s = .next t ∧ t.resp = .data v ∧ v.toNat = T % 16

/-- 42_process section 2 (R139): from any point T of a sample, a PROCESS over equal or disjoint buffers
that are admitted, within the W8 limit and not raced, completes with ERR = 0 in n + 1 engine steps after
its issue checks; its byte j is the source byte XOR the keystream byte of sample position T + j, no
other byte changes, and T + n bytes of the sample are then processed. T is arbitrary, so the output
does not depend on how a sample is cut into commands. The exact number of steps is the model's reading
(log 11). -/
def Obligations.ProcessClosedForm : Prop :=
  ∀ (s : State) (T n : Nat),
    s.dev.procChecked = true → s.dev.mode ≠ .none → s.dev.curI = 0 → s.dev.curLen.toNat = n →
    s.dev.rangeWraps = false → s.dev.SampleAt T →
    (s.dev.mode = .w8 → s.dev.policy = .fault → (T + n + 15) / 16 ≤ 2 ^ 64) →
    (s.dev.curDst = s.dev.curSrc ∨ s.dev.curSrc.toNat + n ≤ s.dev.curDst.toNat ∨
      s.dev.curDst.toNat + n ≤ s.dev.curSrc.toNat) →
    s.admitsRange s.dev.curSrc n → s.admitsRange s.dev.curDst n → s.noBusErrors → s.unraced →
    ∃ t, execTimes .process (n + 1) s = .next t ∧ t.dev.err = .ok ∧ t.dev.busy = false ∧
      t.dev.SampleAt (T + n) ∧
      (∀ j < n, t.mem.read (s.dev.curDst.toNat + j) =
        s.mem.read (s.dev.curSrc.toNat + j) ^^^ s.dev.streamByte (T + j)) ∧
      ∀ a, (a < s.dev.curDst.toNat ∨ s.dev.curDst.toNat + n ≤ a) → t.mem.read a = s.mem.read a

/-- 42_process section 2 (R140): a second PROCESS over the first one's output, from the same starting cipher
state, in place or into any buffer disjoint from the output, gives the first one's input, for a first
PROCESS in place or between disjoint buffers. The exact number of steps is the model's reading (log 11). -/
def Obligations.DecryptInvertsEncrypt : Prop :=
  ∀ (s t : State) (T n : Nat) (out : Word),
    s.dev.procChecked = true → s.dev.mode ≠ .none → s.dev.curI = 0 → s.dev.curLen.toNat = n →
    s.dev.rangeWraps = false → out.toNat + n ≤ 2 ^ 32 → s.dev.SampleAt T →
    (s.dev.mode = .w8 → s.dev.policy = .fault → (T + n + 15) / 16 ≤ 2 ^ 64) →
    (s.dev.curDst = s.dev.curSrc ∨ s.dev.curSrc.toNat + n ≤ s.dev.curDst.toNat ∨
      s.dev.curDst.toNat + n ≤ s.dev.curSrc.toNat) →
    (out = s.dev.curDst ∨ s.dev.curDst.toNat + n ≤ out.toNat ∨ out.toNat + n ≤ s.dev.curDst.toNat) →
    s.admitsRange s.dev.curSrc n → s.admitsRange s.dev.curDst n → s.admitsRange out n →
    s.noBusErrors → s.unraced → execTimes .encrypt (n + 1) s = .next t →
    ∃ u, execTimes .decrypt (n + 1) (t.withDev { s.dev with curSrc := s.dev.curDst, curDst := out }) =
        .next u ∧ u.dev.err = .ok ∧
      (∀ j < n, u.mem.read (out.toNat + j) = s.mem.read (s.dev.curSrc.toNat + j)) ∧
      ∀ a, (a < out.toNat ∨ out.toNat + n ≤ a) → u.mem.read a = t.mem.read a

/-- 42_process section 2 (R140), 30_encoding section 6: ENCRYPT and DECRYPT have the word of PROCESS and
do what it does. -/
def Obligations.AliasesAreProcess : Prop :=
  encode .encrypt = encode .process ∧ encode .decrypt = encode .process ∧
  ∀ s : State, exec .encrypt s = exec .process s ∧ exec .decrypt s = exec .process s

/-- 70_reset_and_hazards section 5 (R212): whatever the platform and the data, a command just accepted
completes after at most CUR_LEN + 2 engine steps. -/
def Obligations.CommandEndsInTime : Prop :=
  ∀ s : State, s.sched = [] → s.dev.busy = true → s.dev.procChecked = false →
    ∃ k t, k ≤ s.dev.curLen.toNat + 2 ∧ Host.Core.run Sys2Proof.core k s = .next t ∧ t.dev.busy = false

/-! ## The host's own accesses of the memory -/

/-- 20_memory section 5 (R62, R63): the host's read of a byte is answered with the memory's value, or, for
a destination byte of a PROCESS it has not seen complete, with that, the value before the command or the
one the command has stored; its write changes no other byte, and leaves that one at its value, or, for a
destination byte that such a PROCESS has stored, at the command's. Neither changes a device. That
MemAdmit bounds neither is the model's choice (log 28). -/
def Obligations.HostMemoryAccess : Prop :=
  ∀ (s : State) (a : Word) (rest : List HostOp), s.turn = .host →
    (s.hostQ = .memRead a :: rest →
      ∃ t v, step s = .next t ∧ t.resp = .byte v ∧ t.mem = s.mem ∧ t.dev = s.dev ∧ t.peers = s.peers ∧
        (v = s.mem.read a.toNat ∨
          ∃ w ∈ s.races, w.dst.toNat ≤ a.toNat ∧ a.toNat < w.dst.toNat + w.len.toNat ∧
            (v = Memory.read w.before a.toNat ∨ (a.toNat, v) ∈ w.stored))) ∧
    ∀ v : Byte, s.hostQ = .memWrite a v :: rest →
      ∃ t, step s = .next t ∧ t.dev = s.dev ∧ t.peers = s.peers ∧
        (t.mem.read a.toNat = v ∨
          ∃ w ∈ s.races, w.dst.toNat ≤ a.toNat ∧ a.toNat < w.dst.toNat + w.len.toNat ∧
            (a.toNat, t.mem.read a.toNat) ∈ w.stored) ∧
        ∀ b, b ≠ a.toNat → t.mem.read b = s.mem.read b

/-- 20_memory section 5 (R62): a STATUS read that returns BUSY = 0 ends the races of the device's
commands, and of no other's. That it ends them for every bus master is the model's choice (log 33). -/
def Obligations.StatusReadEndsRaces : Prop :=
  ∀ s : State, s.dev.busy = false →
    ∃ t, exec .rdStatus s = .next t ∧
      ∀ w, w ∈ t.races ↔ w ∈ s.races ∧ w.owner ≠ s.dev.base

/-- 20_memory section 5 (R63): at a raced byte the engine sees the memory's value, one the host's write
replaced or the host's write, and the byte it stores to ends as its write or the host's; the byte step
commits and leaves every other byte as it does without a race. -/
def Obligations.RacedByteIsEither : Prop :=
  ∀ s : State, s.dev.byteDue → (s.dev.off = 16 → s.dev.ctrOverflows = false) →
    s.admits s.dev.srcAddr = true → s.admits s.dev.dstAddr = true → s.noBusErrors →
    ∃ t x k, exec .process s = .next t ∧ s.dev.nextKeystream = .ok k ∧
      (x = s.mem.read s.dev.srcAddr.toNat ∨
        ∃ w, s.ownWindow = some w ∧ (s.dev.srcAddr.toNat, x) ∈ w.wrote) ∧
      (t.mem.read s.dev.dstAddr.toNat = x ^^^ byteAt k.ks k.o.val ∨
        (t.mem.read s.dev.dstAddr.toNat = s.mem.read s.dev.dstAddr.toNat ∧
          ∃ w y, s.ownWindow = some w ∧ (s.dev.dstAddr.toNat, y) ∈ w.wrote)) ∧
      t.dev = { s.dev with ks := k.ks, blkcnt := k.blk, off := k.o + 1, curI := s.dev.curI + 1 } ∧
      (∀ a, a ≠ s.dev.dstAddr.toNat → t.mem.read a = s.mem.read a) ∧
      t.peers = s.peers ∧ t.hostQ = s.hostQ ∧ t.resp = s.resp ∧ t.hostFault = s.hostFault

/-! ## Host notation -/

/-- 30_encoding section 6 (LOADKEY): its four writes stage the key, most significant word first. -/
def Obligations.LoadKeyStagesKey : Prop :=
  ∀ (s : State) (key : Quad) (rest : List HostOp),
    s.sched = [.host, .host, .host, .host] → s.hostQ = loadKey s.dev.base key ++ rest →
    ∃ t, Host.Core.run Sys2Proof.core 4 s = .next t ∧ t.hostQ = rest ∧ t.dev.keyIn.cat = key
end

