-- ==== Sys2Proof/Laws/Encoding.lean ====
section
/-! SUPPORT. The fields of a command word, of an indexed descriptor, and what the decoders answer. -/

namespace Sys2Proof

@[simp] theorem cmdOp_cmdWord (op : BitVec 4) (kl il : BitVec 5) : cmdOp (cmdWord op kl il) = op := by
  unfold cmdOp cmdWord
  ext i hi
  simp only [BitVec.getElem_extractLsb', BitVec.getLsbD_append]
  simp [hi]

@[simp] theorem cmdKlen_cmdWord (op : BitVec 4) (kl il : BitVec 5) : cmdKlen (cmdWord op kl il) = kl := by
  unfold cmdKlen cmdWord
  ext i hi
  simp only [BitVec.getElem_extractLsb', BitVec.getLsbD_append]
  have h1 : ¬ (4 + i < 4) := by omega
  have h2 : 4 + i - 4 = i := by omega
  simp [h1, h2, hi]

@[simp] theorem cmdIvlen_cmdWord (op : BitVec 4) (kl il : BitVec 5) :
    cmdIvlen (cmdWord op kl il) = il := by
  unfold cmdIvlen cmdWord
  ext i hi
  simp only [BitVec.getElem_extractLsb', BitVec.getLsbD_append]
  have h1 : ¬ (9 + i < 4) := by omega
  have h2 : ¬ (9 + i - 4 < 5) := by omega
  have h3 : 9 + i - 4 - 5 = i := by omega
  simp [h1, h2, h3, hi]

@[simp] theorem cmdRsv_cmdWord (op : BitVec 4) (kl il : BitVec 5) : cmdRsv (cmdWord op kl il) = 0 := by
  unfold cmdRsv cmdWord
  ext i hi
  simp only [BitVec.getElem_extractLsb', BitVec.getLsbD_append]
  have h1 : ¬ (14 + i < 4) := by omega
  have h2 : ¬ (14 + i - 4 < 5) := by omega
  have h3 : ¬ (14 + i - 4 - 5 < 5) := by omega
  simp [h1, h2, h3]

/-- A word with RSV = 0 is the word of its fields. -/
theorem cmdWord_of_fields {w : Word} (h : cmdRsv w = 0) : cmdWord (cmdOp w) (cmdKlen w) (cmdIvlen w) = w := by
  have hr : ∀ i, 14 ≤ i → w.getLsbD i = false := by
    intro i hi
    have := congrArg (fun v : BitVec 18 => v.getLsbD (i - 14)) h
    simp only [cmdRsv, BitVec.getLsbD_extractLsb'] at this
    by_cases hb : i < 32
    · have h1 : i - 14 < 18 := by omega
      have h2 : 14 + (i - 14) = i := by omega
      simpa [h1, h2] using this
    · exact BitVec.getLsbD_of_ge w i (by omega)
  unfold cmdWord cmdOp cmdKlen cmdIvlen
  ext i hi
  simp only [BitVec.getElem_append, BitVec.getElem_extractLsb']
  by_cases h1 : i < 4
  · simp [h1, ← BitVec.getLsbD_eq_getElem]
  · by_cases h2 : i - 4 < 5
    · have h3 : 4 + (i - 4) = i := by omega
      simp [h1, h2, h3, hi]
    · by_cases h4 : i - 4 - 5 < 5
      · have h3 : 9 + (i - 4 - 5) = i := by omega
        simp [h1, h2, h3, h4, hi]
      · have := hr i (by omega)
        rw [BitVec.getLsbD_eq_getElem hi] at this
        simp [h1, h2, h4, this]

@[simp] theorem descriptorIndex_indexed (k : BitVec 2) :
    descriptorIndex (indexedDescriptor 0x040 k) = k ∧ descriptorIndex (indexedDescriptor 0x120 k) = k ∧
    descriptorIndex (indexedDescriptor 0x130 k) = k ∧ descriptorIndex (indexedDescriptor 0x030 k) = k := by
  revert k; decide

/-- The four indices. -/
theorem index_cases (k : BitVec 2) : k = 0 ∨ k = 1 ∨ k = 2 ∨ k = 3 := by revert k; decide

/-- The command decoder agrees with the legality of 30_encoding R75 to R77: it gives the fallback for
exactly the illegal words, and keeps the word. -/
theorem decodeCmd_illegal_iff (w : Word) : decodeCmd w = .illegalCmd w ↔ legalCmdWord w = false := by
  have hop : (w.extractLsb' 0 4).toNat < 16 := (w.extractLsb' 0 4).isLt
  have key : ∀ n < 16, w.extractLsb' 0 4 = BitVec.ofNat 4 n →
      (decodeCmd w = .illegalCmd w ↔ legalCmdWord w = false) := by
    intro n hn h
    interval_cases n <;>
      simp [decodeCmd, legalCmdWord, cmdOp, cmdRsv, cmdKlen, cmdIvlen, h] <;>
      (by_cases h14 : w.extractLsb' 14 18 = 0#18 <;> by_cases h4 : w.extractLsb' 4 5 = 0#5 <;>
        by_cases h9 : w.extractLsb' 9 5 = 0#5 <;> simp [h14, h4, h9])
  exact key _ hop (by apply BitVec.eq_of_toNat_eq; simp)

/-- A descriptor that matches an indexed row under the mask is that row's with its own index. -/
theorem indexed_of_masked (a : Descriptor) :
    (a &&& 0x1F3 = 0x040 → a = indexedDescriptor 0x040 (descriptorIndex a)) ∧
    (a &&& 0x1F3 = 0x120 → a = indexedDescriptor 0x120 (descriptorIndex a)) ∧
    (a &&& 0x1F3 = 0x130 → a = indexedDescriptor 0x130 (descriptorIndex a)) ∧
    (a &&& 0x1F3 = 0x030 → a = indexedDescriptor 0x030 (descriptorIndex a)) := by
  revert a; decide +kernel

/-- All the access decoder can answer, and for which descriptors (30_encoding R82). -/
theorem decodeMmio_cases (a : Descriptor) (d : Word) :
    (a = 0x100 ∧ decodeMmio a d = .wrCmd d) ∨
    (a = 0x004 ∧ decodeMmio a d = .rdStatus) ∨
    (a = 0x104 ∧ decodeMmio a d = .wrStatus d) ∨
    (a = 0x008 ∧ decodeMmio a d = .rdBlkoff) ∨
    (∃ k, a = indexedDescriptor 0x040 k ∧ decodeMmio a d = .rdIvOut k) ∨
    (a = 0x110 ∧ decodeMmio a d = .wrSrc d) ∨
    (a = 0x114 ∧ decodeMmio a d = .wrDst d) ∨
    (a = 0x118 ∧ decodeMmio a d = .wrLen d) ∨
    (a = 0x010 ∧ decodeMmio a d = .rdSrc) ∨
    (a = 0x014 ∧ decodeMmio a d = .rdDst) ∨
    (a = 0x018 ∧ decodeMmio a d = .rdLen) ∨
    (∃ k, a = indexedDescriptor 0x120 k ∧ decodeMmio a d = .wrKeyIn k d) ∨
    (∃ k, a = indexedDescriptor 0x130 k ∧ decodeMmio a d = .wrIvIn k d) ∨
    (∃ k, a = indexedDescriptor 0x030 k ∧ decodeMmio a d = .rdIvIn k) ∨
    (namedDescriptor a = false ∧ decodeMmio a d = .mmioOther a (if a.msb then d else 0)) := by
  unfold decodeMmio
  by_cases h1 : a = 0x100
  · rw [if_pos h1]; exact .inl ⟨h1, rfl⟩
  rw [if_neg h1]; right
  by_cases h2 : a = 0x004
  · rw [if_pos h2]; exact .inl ⟨h2, rfl⟩
  rw [if_neg h2]; right
  by_cases h3 : a = 0x104
  · rw [if_pos h3]; exact .inl ⟨h3, rfl⟩
  rw [if_neg h3]; right
  by_cases h4 : a = 0x008
  · rw [if_pos h4]; exact .inl ⟨h4, rfl⟩
  rw [if_neg h4]; right
  by_cases h5 : a &&& 0x1F3 = 0x040
  · rw [if_pos h5]; exact .inl ⟨_, (indexed_of_masked a).1 h5, rfl⟩
  rw [if_neg h5]; right
  by_cases h6 : a = 0x110
  · rw [if_pos h6]; exact .inl ⟨h6, rfl⟩
  rw [if_neg h6]; right
  by_cases h7 : a = 0x114
  · rw [if_pos h7]; exact .inl ⟨h7, rfl⟩
  rw [if_neg h7]; right
  by_cases h8 : a = 0x118
  · rw [if_pos h8]; exact .inl ⟨h8, rfl⟩
  rw [if_neg h8]; right
  by_cases h9 : a = 0x010
  · rw [if_pos h9]; exact .inl ⟨h9, rfl⟩
  rw [if_neg h9]; right
  by_cases h10 : a = 0x014
  · rw [if_pos h10]; exact .inl ⟨h10, rfl⟩
  rw [if_neg h10]; right
  by_cases h11 : a = 0x018
  · rw [if_pos h11]; exact .inl ⟨h11, rfl⟩
  rw [if_neg h11]; right
  by_cases h12 : a &&& 0x1F3 = 0x120
  · rw [if_pos h12]; exact .inl ⟨_, (indexed_of_masked a).2.1 h12, rfl⟩
  rw [if_neg h12]; right
  by_cases h13 : a &&& 0x1F3 = 0x130
  · rw [if_pos h13]; exact .inl ⟨_, (indexed_of_masked a).2.2.1 h13, rfl⟩
  rw [if_neg h13]; right
  by_cases h14 : a &&& 0x1F3 = 0x030
  · rw [if_pos h14]; exact .inl ⟨_, (indexed_of_masked a).2.2.2 h14, rfl⟩
  rw [if_neg h14]; right
  refine ⟨?_, rfl⟩
  simp only [namedDescriptor, exactDescriptors, indexedDescriptors, Bool.or_eq_false_iff,
    List.contains_cons, List.contains_nil, beq_eq_false_iff_ne]
  exact ⟨⟨h1, h2, h3, h4, h6, h7, h8, h9, h10, h11, trivial⟩, h5, h12, h13, h14, trivial⟩

end Sys2Proof
end

