-- ==== Sys2Proof/Laws/Flags.lean ====
section
/-! SUPPORT. The fields of the STATUS word (10_state R33) and the words and bytes of a 128-bit value. -/

namespace Sys2Proof.Machine

section
variable (ovr errseen : Bool) (err : BitVec 4) (ivlen : BitVec 5) (init : BitVec 1) (busy : Bool)

theorem statusWord_busy : (statusWord ovr errseen err ivlen init busy).getLsbD 0 = busy := by
  simp only [statusWord, BitVec.getLsbD_append]; simp

theorem statusWord_init : (statusWord ovr errseen err ivlen init busy).getLsbD 1 = init.getLsbD 0 := by
  simp only [statusWord, BitVec.getLsbD_append]; simp

theorem statusWord_ivlen : (statusWord ovr errseen err ivlen init busy).extractLsb' 2 5 = ivlen := by
  ext i hi
  have h1 : ¬ (2 + i < 1) := by omega
  have h2 : ¬ (2 + i - 1 < 1) := by omega
  have h3 : 2 + i - 1 - 1 = i := by omega
  simp only [statusWord, BitVec.getElem_extractLsb', BitVec.getLsbD_append, h1, h2, h3, hi, if_false,
    if_true, BitVec.getLsbD_eq_getElem]

theorem statusWord_bit7 : (statusWord ovr errseen err ivlen init busy).getLsbD 7 = false := by
  simp only [statusWord, BitVec.getLsbD_append]; simp

theorem statusWord_err : (statusWord ovr errseen err ivlen init busy).extractLsb' 8 4 = err := by
  ext i hi
  have h1 : ¬ (8 + i < 1) := by omega
  have h2 : ¬ (8 + i - 1 < 1) := by omega
  have h3 : ¬ (8 + i - 1 - 1 < 5) := by omega
  have h4 : ¬ (8 + i - 1 - 1 - 5 < 1) := by omega
  have h5 : 8 + i - 1 - 1 - 5 - 1 = i := by omega
  simp only [statusWord, BitVec.getElem_extractLsb', BitVec.getLsbD_append, h1, h2, h3, h4, h5, hi,
    if_false, if_true, BitVec.getLsbD_eq_getElem]

theorem statusWord_errseen : (statusWord ovr errseen err ivlen init busy).getLsbD 12 = errseen := by
  simp only [statusWord, BitVec.getLsbD_append]; simp

theorem statusWord_ovr : (statusWord ovr errseen err ivlen init busy).getLsbD 13 = ovr := by
  simp only [statusWord, BitVec.getLsbD_append]; simp

theorem statusWord_reserved : (statusWord ovr errseen err ivlen init busy).extractLsb' 14 18 = 0 := by
  ext i hi
  have h1 : ¬ (14 + i < 1) := by omega
  have h2 : ¬ (14 + i - 1 < 1) := by omega
  have h3 : ¬ (14 + i - 1 - 1 < 5) := by omega
  have h4 : ¬ (14 + i - 1 - 1 - 5 < 1) := by omega
  have h5 : ¬ (14 + i - 1 - 1 - 5 - 1 < 4) := by omega
  have h6 : ¬ (14 + i - 1 - 1 - 5 - 1 - 4 < 1) := by omega
  have h7 : ¬ (14 + i - 1 - 1 - 5 - 1 - 4 - 1 < 1) := by omega
  simp only [statusWord, BitVec.getElem_extractLsb', BitVec.getLsbD_append, h1, h2, h3, h4, h5, h6, h7,
    if_false]
  simp

end

/-- The number of a result code is below 8 (60_exceptions R171). -/
theorem ErrCode.bits_lt (c : ErrCode) : c.bits.toNat < 8 := by cases c <;> decide

theorem ErrCode.bits_inj {c c' : ErrCode} (h : c.bits = c'.bits) : c = c' := by
  cases c <;> cases c' <;> first | rfl | (exact absurd h (by decide))

end Sys2Proof.Machine
end

