-- ==== Sys2Proof/Laws/Memory.lean ====
section
/-! SUPPORT. The laws of memory: a read after a write, and the canonical form. -/

namespace Sys2Proof.Machine

@[simp] theorem Memory.read_nil (a : Nat) : Memory.read [] a = unlistedByte := rfl

theorem Memory.read_cons (c : Host.Cell) (m : Memory) (a : Nat) :
    Memory.read (c :: m) a = if c.1 = a then c.2 else Memory.read m a := rfl

theorem Memory.read_erase_same (m : Memory) (a : Nat) : (m.erase a).read a = unlistedByte := by
  induction m with
  | nil => rfl
  | cons c m ih =>
    rw [Memory.erase]
    split
    · exact ih
    · rw [Memory.read_cons, if_neg ‹_›, ih]

theorem Memory.read_erase_other (m : Memory) {a b : Nat} (h : b ≠ a) : (m.erase a).read b = m.read b := by
  induction m with
  | nil => rfl
  | cons c m ih =>
    rw [Memory.erase]
    split
    · rw [ih, Memory.read_cons, if_neg (by omega)]
    · rw [Memory.read_cons, Memory.read_cons, ih]

theorem Memory.read_insert_other (m : Memory) {a b : Nat} (v : Byte) (h : b ≠ a) :
    (m.insert a v).read b = m.read b := by
  induction m with
  | nil => rw [Memory.insert, Memory.read_cons, if_neg (Ne.symm h)]
  | cons c m ih =>
    rw [Memory.insert]
    split
    · rw [Memory.read_cons, if_neg (Ne.symm h)]
    · rw [Memory.read_cons, Memory.read_cons, ih]

/-- Inserting at an address without an entry makes it read the value. -/
theorem Memory.read_insert_erase (m : Memory) (a : Nat) (v : Byte) :
    ((m.erase a).insert a v).read a = v := by
  induction m with
  | nil => simp [Memory.erase, Memory.insert, Memory.read_cons]
  | cons c m ih =>
    rw [Memory.erase]
    split
    · exact ih
    · rw [Memory.insert]
      split
      · rw [Memory.read_cons, if_pos rfl]
      · rw [Memory.read_cons, if_neg ‹_›, ih]

/-- A read after a write to the same address gives the value written. -/
@[simp] theorem Memory.read_write_same (m : Memory) (a : Nat) (v : Byte) : (m.write a v).read a = v := by
  unfold Memory.write
  split
  · rw [Memory.read_erase_same, ‹v = _›]
  · exact Memory.read_insert_erase m a v

/-- A write leaves every other address as it was. -/
theorem Memory.read_write_other (m : Memory) {a b : Nat} (v : Byte) (h : b ≠ a) :
    (m.write a v).read b = m.read b := by
  unfold Memory.write
  split
  · exact Memory.read_erase_other m h
  · rw [Memory.read_insert_other _ _ h, Memory.read_erase_other m h]

theorem Memory.wfFrom_cons (lo : Nat) (c : Host.Cell) (m : Memory) :
    Memory.wfFrom lo (c :: m) = true ↔
      lo ≤ c.1 ∧ c.1 < 2 ^ 32 ∧ c.2 ≠ unlistedByte ∧ Memory.wfFrom (c.1 + 1) m = true := by
  simp [Memory.wfFrom, and_assoc]

theorem Memory.wfFrom_mono {lo lo' : Nat} (m : Memory) (h : lo' ≤ lo) (hw : m.wfFrom lo = true) :
    m.wfFrom lo' = true := by
  cases m with
  | nil => rfl
  | cons c m =>
    rw [Memory.wfFrom_cons] at hw ⊢
    exact ⟨by omega, hw.2⟩

theorem Memory.wfFrom_erase (m : Memory) (lo a : Nat) (hw : m.wfFrom lo = true) :
    (m.erase a).wfFrom lo = true := by
  induction m generalizing lo with
  | nil => exact hw
  | cons c m ih =>
    rw [Memory.wfFrom_cons] at hw
    rw [Memory.erase]
    split
    · exact Memory.wfFrom_mono _ (by omega) (ih _ hw.2.2.2)
    · rw [Memory.wfFrom_cons]
      exact ⟨hw.1, hw.2.1, hw.2.2.1, ih _ hw.2.2.2⟩

theorem Memory.wfFrom_insert_erase (m : Memory) (lo a : Nat) (v : Byte) (hlo : lo ≤ a)
    (ha : a < 2 ^ 32) (hv : v ≠ unlistedByte) (hw : m.wfFrom lo = true) :
    ((m.erase a).insert a v).wfFrom lo = true := by
  induction m generalizing lo with
  | nil =>
    rw [Memory.erase, Memory.insert, Memory.wfFrom_cons]
    exact ⟨hlo, ha, hv, rfl⟩
  | cons c m ih =>
    have hc := (Memory.wfFrom_cons lo c m).mp hw
    rw [Memory.erase]
    split
    · exact ih lo hlo (Memory.wfFrom_mono _ (by omega) hc.2.2.2)
    · rename_i hne
      rw [Memory.insert]
      split
      · rename_i hlt
        rw [Memory.wfFrom_cons]
        refine ⟨hlo, ha, hv, (Memory.wfFrom_cons _ _ _).mpr ⟨hlt, hc.2.1, hc.2.2.1, ?_⟩⟩
        exact Memory.wfFrom_erase m _ a hc.2.2.2
      · rw [Memory.wfFrom_cons]
        exact ⟨hc.1, hc.2.1, hc.2.2.1, ih _ (by omega) hc.2.2.2⟩

/-- A write of an address of the 32-bit space keeps the canonical form. -/
theorem Memory.wf_write (m : Memory) {a : Nat} (v : Byte) (ha : a < 2 ^ 32) (hw : m.wf = true) :
    (m.write a v).wf = true := by
  unfold Memory.write
  split
  · exact Memory.wfFrom_erase m 0 a hw
  · exact Memory.wfFrom_insert_erase m 0 a v (Nat.zero_le _) ha ‹_› hw

/-- The store of a byte at a bus address keeps the canonical form. -/
theorem State.setByte_wf (s : State) (a : Word) (v : Byte) (hw : s.mem.wf = true) :
    (s.setByte a v).mem.wf = true := Memory.wf_write s.mem v a.isLt hw

/-- The engine's store keeps the canonical form. -/
theorem State.engineStore_wf (s : State) (a : Word) (v : Byte) (hw : s.mem.wf = true) :
    (s.engineStore a v).mem.wf = true := by
  unfold State.engineStore
  split
  · exact State.setByte_wf _ a v hw
  · split
    · exact hw
    · exact State.setByte_wf _ a v hw

/-- The host's write keeps the canonical form. -/
theorem State.hostWrite_wf (s : State) (a : Word) (v : Byte) (hw : s.mem.wf = true) :
    (s.hostWrite a v).mem.wf = true := Memory.wf_write s.mem _ a.isLt hw

/-- A write in flight at reset keeps the canonical form. -/
theorem State.dropWrite_wf (s : State) (hw : s.mem.wf = true) : s.dropWrite.mem.wf = true := by
  unfold State.dropWrite
  split
  · exact Memory.wf_write s.mem _ (BitVec.isLt _) hw
  · exact hw

/-- The memory after reset has the canonical form. -/
theorem State.reset_wf : State.reset.mem.wf = true := rfl

end Sys2Proof.Machine
end

