-- ==== Sys2Proof/Laws/State.lean ====
section
/-! SUPPORT. One lemma per field for each named update of a state or a device, true by unfolding, so
that no later proof unfolds a record update. -/

namespace Sys2Proof.Machine

/-! ## Updates of the state -/

@[simp] theorem State.withDev_dev (s : State) (d : Device) : (s.withDev d).dev = d := rfl
@[simp] theorem State.withDev_peers (s : State) (d : Device) : (s.withDev d).peers = s.peers := rfl
@[simp] theorem State.withDev_mem (s : State) (d : Device) : (s.withDev d).mem = s.mem := rfl
@[simp] theorem State.withDev_memAdmit (s : State) (d : Device) : (s.withDev d).memAdmit = s.memAdmit := rfl
@[simp] theorem State.withDev_busAnswers (s : State) (d : Device) : (s.withDev d).busAnswers = s.busAnswers := rfl
@[simp] theorem State.withDev_hostQ (s : State) (d : Device) : (s.withDev d).hostQ = s.hostQ := rfl
@[simp] theorem State.withDev_sched (s : State) (d : Device) : (s.withDev d).sched = s.sched := rfl
@[simp] theorem State.withDev_resp (s : State) (d : Device) : (s.withDev d).resp = s.resp := rfl
@[simp] theorem State.withDev_hostFault (s : State) (d : Device) : (s.withDev d).hostFault = s.hostFault := rfl
@[simp] theorem State.withDev_races (s : State) (d : Device) : (s.withDev d).races = s.races := rfl
@[simp] theorem State.withDev_free (s : State) (d : Device) : (s.withDev d).free = s.free := rfl

@[simp] theorem State.answer_dev (s : State) (r : Resp) : (s.answer r).dev = s.dev := rfl
@[simp] theorem State.answer_peers (s : State) (r : Resp) : (s.answer r).peers = s.peers := rfl
@[simp] theorem State.answer_mem (s : State) (r : Resp) : (s.answer r).mem = s.mem := rfl
@[simp] theorem State.answer_memAdmit (s : State) (r : Resp) : (s.answer r).memAdmit = s.memAdmit := rfl
@[simp] theorem State.answer_busAnswers (s : State) (r : Resp) : (s.answer r).busAnswers = s.busAnswers := rfl
@[simp] theorem State.answer_hostQ (s : State) (r : Resp) : (s.answer r).hostQ = s.hostQ := rfl
@[simp] theorem State.answer_sched (s : State) (r : Resp) : (s.answer r).sched = s.sched := rfl
@[simp] theorem State.answer_resp (s : State) (r : Resp) : (s.answer r).resp = r := rfl
@[simp] theorem State.answer_hostFault (s : State) (r : Resp) : (s.answer r).hostFault = s.hostFault := rfl
@[simp] theorem State.answer_races (s : State) (r : Resp) : (s.answer r).races = s.races := rfl
@[simp] theorem State.answer_free (s : State) (r : Resp) : (s.answer r).free = s.free := rfl

@[simp] theorem State.bumpFree_dev (s : State) : (s.bumpFree).dev = s.dev := rfl
@[simp] theorem State.bumpFree_peers (s : State) : (s.bumpFree).peers = s.peers := rfl
@[simp] theorem State.bumpFree_mem (s : State) : (s.bumpFree).mem = s.mem := rfl
@[simp] theorem State.bumpFree_memAdmit (s : State) : (s.bumpFree).memAdmit = s.memAdmit := rfl
@[simp] theorem State.bumpFree_busAnswers (s : State) : (s.bumpFree).busAnswers = s.busAnswers := rfl
@[simp] theorem State.bumpFree_hostQ (s : State) : (s.bumpFree).hostQ = s.hostQ := rfl
@[simp] theorem State.bumpFree_sched (s : State) : (s.bumpFree).sched = s.sched := rfl
@[simp] theorem State.bumpFree_resp (s : State) : (s.bumpFree).resp = s.resp := rfl
@[simp] theorem State.bumpFree_hostFault (s : State) : (s.bumpFree).hostFault = s.hostFault := rfl
@[simp] theorem State.bumpFree_races (s : State) : (s.bumpFree).races = s.races := rfl
@[simp] theorem State.bumpFree_free (s : State) : (s.bumpFree).free = s.free + 1 := rfl

@[simp] theorem State.hostBusError_dev (s : State) : (s.hostBusError).dev = s.dev := rfl
@[simp] theorem State.hostBusError_peers (s : State) : (s.hostBusError).peers = s.peers := rfl
@[simp] theorem State.hostBusError_mem (s : State) : (s.hostBusError).mem = s.mem := rfl
@[simp] theorem State.hostBusError_memAdmit (s : State) : (s.hostBusError).memAdmit = s.memAdmit := rfl
@[simp] theorem State.hostBusError_busAnswers (s : State) : (s.hostBusError).busAnswers = s.busAnswers := rfl
@[simp] theorem State.hostBusError_hostQ (s : State) : (s.hostBusError).hostQ = s.hostQ := rfl
@[simp] theorem State.hostBusError_sched (s : State) : (s.hostBusError).sched = s.sched := rfl
@[simp] theorem State.hostBusError_resp (s : State) : (s.hostBusError).resp = .busError := rfl
@[simp] theorem State.hostBusError_hostFault (s : State) : (s.hostBusError).hostFault = true := rfl
@[simp] theorem State.hostBusError_races (s : State) : (s.hostBusError).races = s.races := rfl
@[simp] theorem State.hostBusError_free (s : State) : (s.hostBusError).free = s.free := rfl

@[simp] theorem State.takeAnswer_dev (s : State) : (s.takeAnswer).dev = s.dev := rfl
@[simp] theorem State.takeAnswer_peers (s : State) : (s.takeAnswer).peers = s.peers := rfl
@[simp] theorem State.takeAnswer_mem (s : State) : (s.takeAnswer).mem = s.mem := rfl
@[simp] theorem State.takeAnswer_memAdmit (s : State) : (s.takeAnswer).memAdmit = s.memAdmit := rfl
@[simp] theorem State.takeAnswer_busAnswers (s : State) : (s.takeAnswer).busAnswers = s.busAnswers.tail := rfl
@[simp] theorem State.takeAnswer_hostQ (s : State) : (s.takeAnswer).hostQ = s.hostQ := rfl
@[simp] theorem State.takeAnswer_sched (s : State) : (s.takeAnswer).sched = s.sched := rfl
@[simp] theorem State.takeAnswer_resp (s : State) : (s.takeAnswer).resp = s.resp := rfl
@[simp] theorem State.takeAnswer_hostFault (s : State) : (s.takeAnswer).hostFault = s.hostFault := rfl
@[simp] theorem State.takeAnswer_races (s : State) : (s.takeAnswer).races = s.races := rfl
@[simp] theorem State.takeAnswer_free (s : State) : (s.takeAnswer).free = s.free := rfl

@[simp] theorem State.setByte_dev (s : State) (a : Word) (v : Byte) : (s.setByte a v).dev = s.dev := rfl
@[simp] theorem State.setByte_peers (s : State) (a : Word) (v : Byte) : (s.setByte a v).peers = s.peers := rfl
@[simp] theorem State.setByte_mem (s : State) (a : Word) (v : Byte) : (s.setByte a v).mem = s.mem.write a.toNat v := rfl
@[simp] theorem State.setByte_memAdmit (s : State) (a : Word) (v : Byte) : (s.setByte a v).memAdmit = s.memAdmit := rfl
@[simp] theorem State.setByte_busAnswers (s : State) (a : Word) (v : Byte) : (s.setByte a v).busAnswers = s.busAnswers := rfl
@[simp] theorem State.setByte_hostQ (s : State) (a : Word) (v : Byte) : (s.setByte a v).hostQ = s.hostQ := rfl
@[simp] theorem State.setByte_sched (s : State) (a : Word) (v : Byte) : (s.setByte a v).sched = s.sched := rfl
@[simp] theorem State.setByte_resp (s : State) (a : Word) (v : Byte) : (s.setByte a v).resp = s.resp := rfl
@[simp] theorem State.setByte_hostFault (s : State) (a : Word) (v : Byte) : (s.setByte a v).hostFault = s.hostFault := rfl
@[simp] theorem State.setByte_races (s : State) (a : Word) (v : Byte) : (s.setByte a v).races = s.races := rfl
@[simp] theorem State.setByte_free (s : State) (a : Word) (v : Byte) : (s.setByte a v).free = s.free := rfl

@[simp] theorem State.noteStore_dev (s : State) (a : Word) (v : Byte) : (s.noteStore a v).dev = s.dev := rfl
@[simp] theorem State.noteStore_peers (s : State) (a : Word) (v : Byte) : (s.noteStore a v).peers = s.peers := rfl
@[simp] theorem State.noteStore_mem (s : State) (a : Word) (v : Byte) : (s.noteStore a v).mem = s.mem := rfl
@[simp] theorem State.noteStore_memAdmit (s : State) (a : Word) (v : Byte) : (s.noteStore a v).memAdmit = s.memAdmit := rfl
@[simp] theorem State.noteStore_busAnswers (s : State) (a : Word) (v : Byte) : (s.noteStore a v).busAnswers = s.busAnswers := rfl
@[simp] theorem State.noteStore_hostQ (s : State) (a : Word) (v : Byte) : (s.noteStore a v).hostQ = s.hostQ := rfl
@[simp] theorem State.noteStore_sched (s : State) (a : Word) (v : Byte) : (s.noteStore a v).sched = s.sched := rfl
@[simp] theorem State.noteStore_resp (s : State) (a : Word) (v : Byte) : (s.noteStore a v).resp = s.resp := rfl
@[simp] theorem State.noteStore_hostFault (s : State) (a : Word) (v : Byte) : (s.noteStore a v).hostFault = s.hostFault := rfl
@[simp] theorem State.noteStore_races (s : State) (a : Word) (v : Byte) : (s.noteStore a v).races = s.races.map fun w => w.noteStore s.dev.base a v := rfl
@[simp] theorem State.noteStore_free (s : State) (a : Word) (v : Byte) : (s.noteStore a v).free = s.free := rfl

@[simp] theorem State.markStored_dev (s : State) (a : Word) (v : Byte) : (s.markStored a v).dev = s.dev := rfl
@[simp] theorem State.markStored_peers (s : State) (a : Word) (v : Byte) : (s.markStored a v).peers = s.peers := rfl
@[simp] theorem State.markStored_mem (s : State) (a : Word) (v : Byte) : (s.markStored a v).mem = s.mem := rfl
@[simp] theorem State.markStored_memAdmit (s : State) (a : Word) (v : Byte) : (s.markStored a v).memAdmit = s.memAdmit := rfl
@[simp] theorem State.markStored_busAnswers (s : State) (a : Word) (v : Byte) : (s.markStored a v).busAnswers = s.busAnswers := rfl
@[simp] theorem State.markStored_hostQ (s : State) (a : Word) (v : Byte) : (s.markStored a v).hostQ = s.hostQ := rfl
@[simp] theorem State.markStored_sched (s : State) (a : Word) (v : Byte) : (s.markStored a v).sched = s.sched := rfl
@[simp] theorem State.markStored_resp (s : State) (a : Word) (v : Byte) : (s.markStored a v).resp = s.resp := rfl
@[simp] theorem State.markStored_hostFault (s : State) (a : Word) (v : Byte) : (s.markStored a v).hostFault = s.hostFault := rfl
@[simp] theorem State.markStored_races (s : State) (a : Word) (v : Byte) : (s.markStored a v).races = s.races.map fun w => w.markStored s.dev.base a v := rfl
@[simp] theorem State.markStored_free (s : State) (a : Word) (v : Byte) : (s.markStored a v).free = s.free := rfl

@[simp] theorem State.engineSet_dev (s : State) (a : Word) (v : Byte) : (s.engineSet a v).dev = s.dev := rfl
@[simp] theorem State.engineSet_peers (s : State) (a : Word) (v : Byte) : (s.engineSet a v).peers = s.peers := rfl
@[simp] theorem State.engineSet_mem (s : State) (a : Word) (v : Byte) : (s.engineSet a v).mem = s.mem.write a.toNat v := rfl
@[simp] theorem State.engineSet_memAdmit (s : State) (a : Word) (v : Byte) : (s.engineSet a v).memAdmit = s.memAdmit := rfl
@[simp] theorem State.engineSet_busAnswers (s : State) (a : Word) (v : Byte) : (s.engineSet a v).busAnswers = s.busAnswers := rfl
@[simp] theorem State.engineSet_hostQ (s : State) (a : Word) (v : Byte) : (s.engineSet a v).hostQ = s.hostQ := rfl
@[simp] theorem State.engineSet_sched (s : State) (a : Word) (v : Byte) : (s.engineSet a v).sched = s.sched := rfl
@[simp] theorem State.engineSet_resp (s : State) (a : Word) (v : Byte) : (s.engineSet a v).resp = s.resp := rfl
@[simp] theorem State.engineSet_hostFault (s : State) (a : Word) (v : Byte) : (s.engineSet a v).hostFault = s.hostFault := rfl
@[simp] theorem State.engineSet_races (s : State) (a : Word) (v : Byte) : (s.engineSet a v).races = s.races.map fun w => w.markStored s.dev.base a v := rfl
@[simp] theorem State.engineSet_free (s : State) (a : Word) (v : Byte) : (s.engineSet a v).free = s.free := rfl

@[simp] theorem State.noteWrite_dev (s : State) (a : Word) (v : Byte) : (s.noteWrite a v).dev = s.dev := rfl
@[simp] theorem State.noteWrite_peers (s : State) (a : Word) (v : Byte) : (s.noteWrite a v).peers = s.peers := rfl
@[simp] theorem State.noteWrite_mem (s : State) (a : Word) (v : Byte) : (s.noteWrite a v).mem = s.mem := rfl
@[simp] theorem State.noteWrite_memAdmit (s : State) (a : Word) (v : Byte) : (s.noteWrite a v).memAdmit = s.memAdmit := rfl
@[simp] theorem State.noteWrite_busAnswers (s : State) (a : Word) (v : Byte) : (s.noteWrite a v).busAnswers = s.busAnswers := rfl
@[simp] theorem State.noteWrite_hostQ (s : State) (a : Word) (v : Byte) : (s.noteWrite a v).hostQ = s.hostQ := rfl
@[simp] theorem State.noteWrite_sched (s : State) (a : Word) (v : Byte) : (s.noteWrite a v).sched = s.sched := rfl
@[simp] theorem State.noteWrite_resp (s : State) (a : Word) (v : Byte) : (s.noteWrite a v).resp = s.resp := rfl
@[simp] theorem State.noteWrite_hostFault (s : State) (a : Word) (v : Byte) : (s.noteWrite a v).hostFault = s.hostFault := rfl
@[simp] theorem State.noteWrite_races (s : State) (a : Word) (v : Byte) : (s.noteWrite a v).races = s.races.map fun w => w.noteWrite a (s.mem.read a.toNat) v := rfl
@[simp] theorem State.noteWrite_free (s : State) (a : Word) (v : Byte) : (s.noteWrite a v).free = s.free := rfl

@[simp] theorem State.finish_dev (s : State) (c : ErrCode) : (s.finish c).dev = s.dev.finish c := rfl
@[simp] theorem State.finish_peers (s : State) (c : ErrCode) : (s.finish c).peers = s.peers := rfl
@[simp] theorem State.finish_mem (s : State) (c : ErrCode) : (s.finish c).mem = s.mem := rfl
@[simp] theorem State.finish_memAdmit (s : State) (c : ErrCode) : (s.finish c).memAdmit = s.memAdmit := rfl
@[simp] theorem State.finish_busAnswers (s : State) (c : ErrCode) : (s.finish c).busAnswers = s.busAnswers := rfl
@[simp] theorem State.finish_hostQ (s : State) (c : ErrCode) : (s.finish c).hostQ = s.hostQ := rfl
@[simp] theorem State.finish_sched (s : State) (c : ErrCode) : (s.finish c).sched = s.sched := rfl
@[simp] theorem State.finish_resp (s : State) (c : ErrCode) : (s.finish c).resp = s.resp := rfl
@[simp] theorem State.finish_hostFault (s : State) (c : ErrCode) : (s.finish c).hostFault = s.hostFault := rfl
@[simp] theorem State.finish_races (s : State) (c : ErrCode) : (s.finish c).races = s.races := rfl
@[simp] theorem State.finish_free (s : State) (c : ErrCode) : (s.finish c).free = s.free := rfl

@[simp] theorem State.accept_dev (s : State) (w : Word) : (s.accept w).dev = s.dev.accept w := rfl
@[simp] theorem State.accept_peers (s : State) (w : Word) : (s.accept w).peers = s.peers := rfl
@[simp] theorem State.accept_mem (s : State) (w : Word) : (s.accept w).mem = s.mem := rfl
@[simp] theorem State.accept_memAdmit (s : State) (w : Word) : (s.accept w).memAdmit = s.memAdmit := rfl
@[simp] theorem State.accept_busAnswers (s : State) (w : Word) : (s.accept w).busAnswers = s.busAnswers := rfl
@[simp] theorem State.accept_hostQ (s : State) (w : Word) : (s.accept w).hostQ = s.hostQ := rfl
@[simp] theorem State.accept_sched (s : State) (w : Word) : (s.accept w).sched = s.sched := rfl
@[simp] theorem State.accept_resp (s : State) (w : Word) : (s.accept w).resp = s.resp := rfl
@[simp] theorem State.accept_hostFault (s : State) (w : Word) : (s.accept w).hostFault = s.hostFault := rfl
@[simp] theorem State.accept_races (s : State) (w : Word) : (s.accept w).races = s.windowOf w ++ s.races := rfl
@[simp] theorem State.accept_free (s : State) (w : Word) : (s.accept w).free = s.free := rfl

@[simp] theorem State.closeWindows_dev (s : State) : (s.closeWindows).dev = s.dev := rfl
@[simp] theorem State.closeWindows_peers (s : State) : (s.closeWindows).peers = s.peers := rfl
@[simp] theorem State.closeWindows_mem (s : State) : (s.closeWindows).mem = s.mem := rfl
@[simp] theorem State.closeWindows_memAdmit (s : State) : (s.closeWindows).memAdmit = s.memAdmit := rfl
@[simp] theorem State.closeWindows_busAnswers (s : State) : (s.closeWindows).busAnswers = s.busAnswers := rfl
@[simp] theorem State.closeWindows_hostQ (s : State) : (s.closeWindows).hostQ = s.hostQ := rfl
@[simp] theorem State.closeWindows_sched (s : State) : (s.closeWindows).sched = s.sched := rfl
@[simp] theorem State.closeWindows_resp (s : State) : (s.closeWindows).resp = s.resp := rfl
@[simp] theorem State.closeWindows_hostFault (s : State) : (s.closeWindows).hostFault = s.hostFault := rfl
@[simp] theorem State.closeWindows_races (s : State) : (s.closeWindows).races = s.races.filter fun w => w.owner != s.dev.base := rfl
@[simp] theorem State.closeWindows_free (s : State) : (s.closeWindows).free = s.free := rfl

@[simp] theorem State.ackWith_dev (s : State) (d : Device) : (s.ackWith d).dev = d := rfl
@[simp] theorem State.ackWith_peers (s : State) (d : Device) : (s.ackWith d).peers = s.peers := rfl
@[simp] theorem State.ackWith_mem (s : State) (d : Device) : (s.ackWith d).mem = s.mem := rfl
@[simp] theorem State.ackWith_memAdmit (s : State) (d : Device) : (s.ackWith d).memAdmit = s.memAdmit := rfl
@[simp] theorem State.ackWith_busAnswers (s : State) (d : Device) : (s.ackWith d).busAnswers = s.busAnswers := rfl
@[simp] theorem State.ackWith_hostQ (s : State) (d : Device) : (s.ackWith d).hostQ = s.hostQ := rfl
@[simp] theorem State.ackWith_sched (s : State) (d : Device) : (s.ackWith d).sched = s.sched := rfl
@[simp] theorem State.ackWith_resp (s : State) (d : Device) : (s.ackWith d).resp = .ack := rfl
@[simp] theorem State.ackWith_hostFault (s : State) (d : Device) : (s.ackWith d).hostFault = s.hostFault := rfl
@[simp] theorem State.ackWith_races (s : State) (d : Device) : (s.ackWith d).races = s.races := rfl
@[simp] theorem State.ackWith_free (s : State) (d : Device) : (s.ackWith d).free = s.free := rfl

/-! ## Updates of a device -/

@[simp] theorem Device.finish_base (d : Device) (c : ErrCode) : (d.finish c).base = d.base := rfl
@[simp] theorem Device.finish_policy (d : Device) (c : ErrCode) : (d.finish c).policy = d.policy := rfl
@[simp] theorem Device.finish_key (d : Device) (c : ErrCode) : (d.finish c).key = d.key := rfl
@[simp] theorem Device.finish_mode (d : Device) (c : ErrCode) : (d.finish c).mode = d.mode := rfl
@[simp] theorem Device.finish_iv (d : Device) (c : ErrCode) : (d.finish c).iv = d.iv := rfl
@[simp] theorem Device.finish_blkcnt (d : Device) (c : ErrCode) : (d.finish c).blkcnt = d.blkcnt := rfl
@[simp] theorem Device.finish_ks (d : Device) (c : ErrCode) : (d.finish c).ks = d.ks := rfl
@[simp] theorem Device.finish_off (d : Device) (c : ErrCode) : (d.finish c).off = d.off := rfl
@[simp] theorem Device.finish_busy (d : Device) (c : ErrCode) : (d.finish c).busy = false := rfl
@[simp] theorem Device.finish_err (d : Device) (c : ErrCode) : (d.finish c).err = c := rfl
@[simp] theorem Device.finish_errseen (d : Device) (c : ErrCode) : (d.finish c).errseen = (d.errseen || decide (c ≠ .ok)) := rfl
@[simp] theorem Device.finish_ovr (d : Device) (c : ErrCode) : (d.finish c).ovr = d.ovr := rfl
@[simp] theorem Device.finish_src (d : Device) (c : ErrCode) : (d.finish c).src = d.src := rfl
@[simp] theorem Device.finish_dst (d : Device) (c : ErrCode) : (d.finish c).dst = d.dst := rfl
@[simp] theorem Device.finish_len (d : Device) (c : ErrCode) : (d.finish c).len = d.len := rfl
@[simp] theorem Device.finish_keyIn (d : Device) (c : ErrCode) : (d.finish c).keyIn = d.keyIn := rfl
@[simp] theorem Device.finish_ivIn (d : Device) (c : ErrCode) : (d.finish c).ivIn = d.ivIn := rfl
@[simp] theorem Device.finish_curCmd (d : Device) (c : ErrCode) : (d.finish c).curCmd = d.curCmd := rfl
@[simp] theorem Device.finish_curSrc (d : Device) (c : ErrCode) : (d.finish c).curSrc = d.curSrc := rfl
@[simp] theorem Device.finish_curDst (d : Device) (c : ErrCode) : (d.finish c).curDst = d.curDst := rfl
@[simp] theorem Device.finish_curLen (d : Device) (c : ErrCode) : (d.finish c).curLen = d.curLen := rfl
@[simp] theorem Device.finish_curKey (d : Device) (c : ErrCode) : (d.finish c).curKey = 0 := rfl
@[simp] theorem Device.finish_curIv (d : Device) (c : ErrCode) : (d.finish c).curIv = d.curIv := rfl
@[simp] theorem Device.finish_curI (d : Device) (c : ErrCode) : (d.finish c).curI = d.curI := rfl
@[simp] theorem Device.finish_procChecked (d : Device) (c : ErrCode) : (d.finish c).procChecked = false := rfl

@[simp] theorem Device.accept_base (d : Device) (w : Word) : (d.accept w).base = d.base := rfl
@[simp] theorem Device.accept_policy (d : Device) (w : Word) : (d.accept w).policy = d.policy := rfl
@[simp] theorem Device.accept_key (d : Device) (w : Word) : (d.accept w).key = d.key := rfl
@[simp] theorem Device.accept_mode (d : Device) (w : Word) : (d.accept w).mode = d.mode := rfl
@[simp] theorem Device.accept_iv (d : Device) (w : Word) : (d.accept w).iv = d.iv := rfl
@[simp] theorem Device.accept_blkcnt (d : Device) (w : Word) : (d.accept w).blkcnt = d.blkcnt := rfl
@[simp] theorem Device.accept_ks (d : Device) (w : Word) : (d.accept w).ks = d.ks := rfl
@[simp] theorem Device.accept_off (d : Device) (w : Word) : (d.accept w).off = d.off := rfl
@[simp] theorem Device.accept_busy (d : Device) (w : Word) : (d.accept w).busy = true := rfl
@[simp] theorem Device.accept_err (d : Device) (w : Word) : (d.accept w).err = d.err := rfl
@[simp] theorem Device.accept_errseen (d : Device) (w : Word) : (d.accept w).errseen = d.errseen := rfl
@[simp] theorem Device.accept_ovr (d : Device) (w : Word) : (d.accept w).ovr = d.ovr := rfl
@[simp] theorem Device.accept_src (d : Device) (w : Word) : (d.accept w).src = d.src := rfl
@[simp] theorem Device.accept_dst (d : Device) (w : Word) : (d.accept w).dst = d.dst := rfl
@[simp] theorem Device.accept_len (d : Device) (w : Word) : (d.accept w).len = d.len := rfl
@[simp] theorem Device.accept_keyIn (d : Device) (w : Word) : (d.accept w).keyIn = if cmdOp w = 1 ∨ cmdOp w = 2 then ⟨0, 0, 0, 0⟩ else d.keyIn := rfl
@[simp] theorem Device.accept_ivIn (d : Device) (w : Word) : (d.accept w).ivIn = d.ivIn := rfl
@[simp] theorem Device.accept_curCmd (d : Device) (w : Word) : (d.accept w).curCmd = w := rfl
@[simp] theorem Device.accept_curSrc (d : Device) (w : Word) : (d.accept w).curSrc = d.src := rfl
@[simp] theorem Device.accept_curDst (d : Device) (w : Word) : (d.accept w).curDst = d.dst := rfl
@[simp] theorem Device.accept_curLen (d : Device) (w : Word) : (d.accept w).curLen = d.len := rfl
@[simp] theorem Device.accept_curKey (d : Device) (w : Word) : (d.accept w).curKey = d.keyIn.cat := rfl
@[simp] theorem Device.accept_curIv (d : Device) (w : Word) : (d.accept w).curIv = d.ivIn.cat := rfl
@[simp] theorem Device.accept_curI (d : Device) (w : Word) : (d.accept w).curI = 0 := rfl
@[simp] theorem Device.accept_procChecked (d : Device) (w : Word) : (d.accept w).procChecked = false := rfl

@[simp] theorem Device.writeStatus_base (d : Device) (w : Word) : (d.writeStatus w).base = d.base := rfl
@[simp] theorem Device.writeStatus_policy (d : Device) (w : Word) : (d.writeStatus w).policy = d.policy := rfl
@[simp] theorem Device.writeStatus_key (d : Device) (w : Word) : (d.writeStatus w).key = d.key := rfl
@[simp] theorem Device.writeStatus_mode (d : Device) (w : Word) : (d.writeStatus w).mode = d.mode := rfl
@[simp] theorem Device.writeStatus_iv (d : Device) (w : Word) : (d.writeStatus w).iv = d.iv := rfl
@[simp] theorem Device.writeStatus_blkcnt (d : Device) (w : Word) : (d.writeStatus w).blkcnt = d.blkcnt := rfl
@[simp] theorem Device.writeStatus_ks (d : Device) (w : Word) : (d.writeStatus w).ks = d.ks := rfl
@[simp] theorem Device.writeStatus_off (d : Device) (w : Word) : (d.writeStatus w).off = d.off := rfl
@[simp] theorem Device.writeStatus_busy (d : Device) (w : Word) : (d.writeStatus w).busy = d.busy := rfl
@[simp] theorem Device.writeStatus_err (d : Device) (w : Word) : (d.writeStatus w).err = d.err := rfl
@[simp] theorem Device.writeStatus_errseen (d : Device) (w : Word) : (d.writeStatus w).errseen = (d.errseen && !w.getLsbD 12) := rfl
@[simp] theorem Device.writeStatus_ovr (d : Device) (w : Word) : (d.writeStatus w).ovr = (d.ovr && !w.getLsbD 13) := rfl
@[simp] theorem Device.writeStatus_src (d : Device) (w : Word) : (d.writeStatus w).src = d.src := rfl
@[simp] theorem Device.writeStatus_dst (d : Device) (w : Word) : (d.writeStatus w).dst = d.dst := rfl
@[simp] theorem Device.writeStatus_len (d : Device) (w : Word) : (d.writeStatus w).len = d.len := rfl
@[simp] theorem Device.writeStatus_keyIn (d : Device) (w : Word) : (d.writeStatus w).keyIn = d.keyIn := rfl
@[simp] theorem Device.writeStatus_ivIn (d : Device) (w : Word) : (d.writeStatus w).ivIn = d.ivIn := rfl
@[simp] theorem Device.writeStatus_curCmd (d : Device) (w : Word) : (d.writeStatus w).curCmd = d.curCmd := rfl
@[simp] theorem Device.writeStatus_curSrc (d : Device) (w : Word) : (d.writeStatus w).curSrc = d.curSrc := rfl
@[simp] theorem Device.writeStatus_curDst (d : Device) (w : Word) : (d.writeStatus w).curDst = d.curDst := rfl
@[simp] theorem Device.writeStatus_curLen (d : Device) (w : Word) : (d.writeStatus w).curLen = d.curLen := rfl
@[simp] theorem Device.writeStatus_curKey (d : Device) (w : Word) : (d.writeStatus w).curKey = d.curKey := rfl
@[simp] theorem Device.writeStatus_curIv (d : Device) (w : Word) : (d.writeStatus w).curIv = d.curIv := rfl
@[simp] theorem Device.writeStatus_curI (d : Device) (w : Word) : (d.writeStatus w).curI = d.curI := rfl
@[simp] theorem Device.writeStatus_procChecked (d : Device) (w : Word) : (d.writeStatus w).procChecked = d.procChecked := rfl

@[simp] theorem Device.commitByte_base (d : Device) (k : Keystream) : (d.commitByte k).base = d.base := rfl
@[simp] theorem Device.commitByte_policy (d : Device) (k : Keystream) : (d.commitByte k).policy = d.policy := rfl
@[simp] theorem Device.commitByte_key (d : Device) (k : Keystream) : (d.commitByte k).key = d.key := rfl
@[simp] theorem Device.commitByte_mode (d : Device) (k : Keystream) : (d.commitByte k).mode = d.mode := rfl
@[simp] theorem Device.commitByte_iv (d : Device) (k : Keystream) : (d.commitByte k).iv = d.iv := rfl
@[simp] theorem Device.commitByte_blkcnt (d : Device) (k : Keystream) : (d.commitByte k).blkcnt = k.blk := rfl
@[simp] theorem Device.commitByte_ks (d : Device) (k : Keystream) : (d.commitByte k).ks = k.ks := rfl
@[simp] theorem Device.commitByte_off (d : Device) (k : Keystream) : (d.commitByte k).off = k.o + 1 := rfl
@[simp] theorem Device.commitByte_busy (d : Device) (k : Keystream) : (d.commitByte k).busy = d.busy := rfl
@[simp] theorem Device.commitByte_err (d : Device) (k : Keystream) : (d.commitByte k).err = d.err := rfl
@[simp] theorem Device.commitByte_errseen (d : Device) (k : Keystream) : (d.commitByte k).errseen = d.errseen := rfl
@[simp] theorem Device.commitByte_ovr (d : Device) (k : Keystream) : (d.commitByte k).ovr = d.ovr := rfl
@[simp] theorem Device.commitByte_src (d : Device) (k : Keystream) : (d.commitByte k).src = d.src := rfl
@[simp] theorem Device.commitByte_dst (d : Device) (k : Keystream) : (d.commitByte k).dst = d.dst := rfl
@[simp] theorem Device.commitByte_len (d : Device) (k : Keystream) : (d.commitByte k).len = d.len := rfl
@[simp] theorem Device.commitByte_keyIn (d : Device) (k : Keystream) : (d.commitByte k).keyIn = d.keyIn := rfl
@[simp] theorem Device.commitByte_ivIn (d : Device) (k : Keystream) : (d.commitByte k).ivIn = d.ivIn := rfl
@[simp] theorem Device.commitByte_curCmd (d : Device) (k : Keystream) : (d.commitByte k).curCmd = d.curCmd := rfl
@[simp] theorem Device.commitByte_curSrc (d : Device) (k : Keystream) : (d.commitByte k).curSrc = d.curSrc := rfl
@[simp] theorem Device.commitByte_curDst (d : Device) (k : Keystream) : (d.commitByte k).curDst = d.curDst := rfl
@[simp] theorem Device.commitByte_curLen (d : Device) (k : Keystream) : (d.commitByte k).curLen = d.curLen := rfl
@[simp] theorem Device.commitByte_curKey (d : Device) (k : Keystream) : (d.commitByte k).curKey = d.curKey := rfl
@[simp] theorem Device.commitByte_curIv (d : Device) (k : Keystream) : (d.commitByte k).curIv = d.curIv := rfl
@[simp] theorem Device.commitByte_curI (d : Device) (k : Keystream) : (d.commitByte k).curI = d.curI + 1 := rfl
@[simp] theorem Device.commitByte_procChecked (d : Device) (k : Keystream) : (d.commitByte k).procChecked = d.procChecked := rfl

/-! LoadIv writes MODE, IV, BLKCNT and OFF only (40_init R100). -/

@[simp] theorem Device.loadIv_base (d : Device) (il : BitVec 5) (v : Quad) :
    (d.loadIv il v).base = d.base := by
  unfold Device.loadIv; split <;> rfl
@[simp] theorem Device.loadIv_policy (d : Device) (il : BitVec 5) (v : Quad) :
    (d.loadIv il v).policy = d.policy := by
  unfold Device.loadIv; split <;> rfl
@[simp] theorem Device.loadIv_key (d : Device) (il : BitVec 5) (v : Quad) :
    (d.loadIv il v).key = d.key := by
  unfold Device.loadIv; split <;> rfl
@[simp] theorem Device.loadIv_mode (d : Device) (il : BitVec 5) (v : Quad) :
    (d.loadIv il v).mode = if il = 16 then .w16 else .w8 := by
  unfold Device.loadIv; split <;> rfl
@[simp] theorem Device.loadIv_iv (d : Device) (il : BitVec 5) (v : Quad) :
    (d.loadIv il v).iv = if il = 16 then v else v.extractLsb' 64 64 ++ (0 : BitVec 64) := by
  unfold Device.loadIv; split <;> rfl
@[simp] theorem Device.loadIv_blkcnt (d : Device) (il : BitVec 5) (v : Quad) :
    (d.loadIv il v).blkcnt = 0 := by
  unfold Device.loadIv; split <;> rfl
@[simp] theorem Device.loadIv_ks (d : Device) (il : BitVec 5) (v : Quad) :
    (d.loadIv il v).ks = d.ks := by
  unfold Device.loadIv; split <;> rfl
@[simp] theorem Device.loadIv_off (d : Device) (il : BitVec 5) (v : Quad) :
    (d.loadIv il v).off = 16 := by
  unfold Device.loadIv; split <;> rfl
@[simp] theorem Device.loadIv_busy (d : Device) (il : BitVec 5) (v : Quad) :
    (d.loadIv il v).busy = d.busy := by
  unfold Device.loadIv; split <;> rfl
@[simp] theorem Device.loadIv_err (d : Device) (il : BitVec 5) (v : Quad) :
    (d.loadIv il v).err = d.err := by
  unfold Device.loadIv; split <;> rfl
@[simp] theorem Device.loadIv_errseen (d : Device) (il : BitVec 5) (v : Quad) :
    (d.loadIv il v).errseen = d.errseen := by
  unfold Device.loadIv; split <;> rfl
@[simp] theorem Device.loadIv_ovr (d : Device) (il : BitVec 5) (v : Quad) :
    (d.loadIv il v).ovr = d.ovr := by
  unfold Device.loadIv; split <;> rfl
@[simp] theorem Device.loadIv_src (d : Device) (il : BitVec 5) (v : Quad) :
    (d.loadIv il v).src = d.src := by
  unfold Device.loadIv; split <;> rfl
@[simp] theorem Device.loadIv_dst (d : Device) (il : BitVec 5) (v : Quad) :
    (d.loadIv il v).dst = d.dst := by
  unfold Device.loadIv; split <;> rfl
@[simp] theorem Device.loadIv_len (d : Device) (il : BitVec 5) (v : Quad) :
    (d.loadIv il v).len = d.len := by
  unfold Device.loadIv; split <;> rfl
@[simp] theorem Device.loadIv_keyIn (d : Device) (il : BitVec 5) (v : Quad) :
    (d.loadIv il v).keyIn = d.keyIn := by
  unfold Device.loadIv; split <;> rfl
@[simp] theorem Device.loadIv_ivIn (d : Device) (il : BitVec 5) (v : Quad) :
    (d.loadIv il v).ivIn = d.ivIn := by
  unfold Device.loadIv; split <;> rfl
@[simp] theorem Device.loadIv_curCmd (d : Device) (il : BitVec 5) (v : Quad) :
    (d.loadIv il v).curCmd = d.curCmd := by
  unfold Device.loadIv; split <;> rfl
@[simp] theorem Device.loadIv_curSrc (d : Device) (il : BitVec 5) (v : Quad) :
    (d.loadIv il v).curSrc = d.curSrc := by
  unfold Device.loadIv; split <;> rfl
@[simp] theorem Device.loadIv_curDst (d : Device) (il : BitVec 5) (v : Quad) :
    (d.loadIv il v).curDst = d.curDst := by
  unfold Device.loadIv; split <;> rfl
@[simp] theorem Device.loadIv_curLen (d : Device) (il : BitVec 5) (v : Quad) :
    (d.loadIv il v).curLen = d.curLen := by
  unfold Device.loadIv; split <;> rfl
@[simp] theorem Device.loadIv_curKey (d : Device) (il : BitVec 5) (v : Quad) :
    (d.loadIv il v).curKey = d.curKey := by
  unfold Device.loadIv; split <;> rfl
@[simp] theorem Device.loadIv_curIv (d : Device) (il : BitVec 5) (v : Quad) :
    (d.loadIv il v).curIv = d.curIv := by
  unfold Device.loadIv; split <;> rfl
@[simp] theorem Device.loadIv_curI (d : Device) (il : BitVec 5) (v : Quad) :
    (d.loadIv il v).curI = d.curI := by
  unfold Device.loadIv; split <;> rfl
@[simp] theorem Device.loadIv_procChecked (d : Device) (il : BitVec 5) (v : Quad) :
    (d.loadIv il v).procChecked = d.procChecked := by
  unfold Device.loadIv; split <;> rfl

end Sys2Proof.Machine
end

