-- ==== Sys2Proof/Laws/Ops.lean ====
section
/-! SUPPORT. What each shared operation can do, said once: operand checks, bus accesses, the engine's
reads and stores, block entry, the byte step, and the change of places of two devices. -/

namespace Sys2Proof.Machine

/-! ## Operand checks -/

theorem keyLenLegal_iff (kl : BitVec 5) : keyLenLegal kl = true ↔ kl.toNat = 16 := by
  revert kl; decide

theorem ivLenLegal_iff (il : BitVec 5) : ivLenLegal il = true ↔ il.toNat = 8 ∨ il.toNat = 16 := by
  revert il; decide

/-- INIT_IV and INIT_RAND pass their checks exactly with a 16-byte key and an 8- or 16-byte IV. -/
theorem initCheck_none_iff (kl il : BitVec 5) :
    initCheck kl il = none ↔ kl.toNat = 16 ∧ (il.toNat = 8 ∨ il.toNat = 16) := by
  revert kl il; decide

/-- They never fail with success as the code. -/
theorem initCheck_ne_ok (kl il : BitVec 5) : initCheck kl il ≠ some .ok := by
  revert kl il; decide

/-! ## Races -/

@[simp] theorem pick_nil (n : Nat) (b : Byte) : pick n b [] = b := rfl

/-- A pick is the current value or one of the others. -/
theorem pick_mem (n : Nat) (b : Byte) (l : List Byte) : pick n b l = b ∨ pick n b l ∈ l := by
  cases l with
  | nil => exact .inl rfl
  | cons c cs =>
    have h : n % (cs.length + 2) < (b :: c :: cs).length := Nat.mod_lt _ (by simp)
    have hm : pick n b (c :: cs) ∈ b :: c :: cs := by
      rw [pick, List.getD_eq_getElem _ _ h]; exact List.getElem_mem h
    exact List.mem_cons.mp hm

/-- Without a host write in its window the engine sees no overwritten value. -/
theorem State.overwritten_of_unraced {s : State} (h : s.unraced) (a : Word) : s.overwritten a = [] := by
  unfold State.overwritten
  split
  · rfl
  · rw [h _ ‹_›]; rfl

/-- What the engine records of its own stores races with nothing. -/
theorem State.engineSet_unraced {s : State} (h : s.unraced) (a : Word) (v : Byte) :
    (s.engineSet a v).unraced := by
  have keep : ∀ w : RaceWindow, (w.markStored s.dev.base a v).owner = w.owner ∧
      (w.markStored s.dev.base a v).wrote = w.wrote := by
    intro w
    unfold RaceWindow.markStored
    split <;> exact ⟨rfl, rfl⟩
  intro w hw
  simp only [State.ownWindow, State.engineSet_races, State.engineSet_dev, List.find?_map,
    Option.map_eq_some_iff] at hw
  obtain ⟨w', hf, rfl⟩ := hw
  rw [(keep w').2]
  refine h w' ?_
  simpa [State.ownWindow, Function.comp_def, (keep _).1] using hf

theorem State.engineByte_of_unraced {s : State} (h : s.unraced) (a : Word) :
    s.engineByte a = s.mem.read a.toNat := by
  rw [State.engineByte, State.overwritten_of_unraced h, pick_nil]

theorem State.engineStore_of_unraced {s : State} (h : s.unraced) (a : Word) (v : Byte) :
    s.engineStore a v = s.engineSet a v := by
  rw [State.engineStore, State.overwritten_of_unraced h]; rfl

/-- The engine's store changes the memory and the record of races only. -/
theorem State.engineStore_frame (s : State) (a : Word) (v : Byte) :
    (s.engineStore a v).dev = s.dev ∧ (s.engineStore a v).peers = s.peers ∧
    (s.engineStore a v).memAdmit = s.memAdmit ∧ (s.engineStore a v).busAnswers = s.busAnswers ∧
    (s.engineStore a v).hostQ = s.hostQ ∧ (s.engineStore a v).sched = s.sched ∧
    (s.engineStore a v).resp = s.resp ∧ (s.engineStore a v).hostFault = s.hostFault ∧
    (s.engineStore a v).free = s.free := by
  unfold State.engineStore
  split
  · simp
  · split <;> simp

/-- The engine's store leaves every other byte as it was. -/
theorem State.engineStore_read_other (s : State) (a : Word) (v : Byte) {b : Nat} (h : b ≠ a.toNat) :
    (s.engineStore a v).mem.read b = s.mem.read b := by
  unfold State.engineStore
  split
  · exact Memory.read_write_other _ _ h
  · split
    · rfl
    · exact Memory.read_write_other _ _ h

/-- The byte the engine stores to holds its write, or, only where the host raced, the host's. -/
theorem State.engineStore_read_same (s : State) (a : Word) (v : Byte) :
    (s.engineStore a v).mem.read a.toNat = v ∨
    ((s.engineStore a v).mem.read a.toNat = s.mem.read a.toNat ∧ s.overwritten a ≠ []) := by
  unfold State.engineStore
  split
  · exact .inl (Memory.read_write_same ..)
  · split
    · exact .inr ⟨rfl, by simpa [List.isEmpty_iff] using ‹¬(s.overwritten a).isEmpty = true›⟩
    · exact .inl (Memory.read_write_same ..)

/-- A byte among those stored is one that some open window records, in its destination range. -/
theorem State.mem_storedBytes {s : State} {a : Word} {b : Byte} (h : b ∈ s.storedBytes a) :
    ∃ w ∈ s.races, w.inDst a = true ∧ (a.toNat, b) ∈ w.stored := by
  simp only [State.storedBytes, List.mem_filterMap, List.mem_filter, RaceWindow.storedAt,
    Option.map_eq_some_iff] at h
  obtain ⟨w, ⟨hw, hd⟩, c, hf, rfl⟩ := h
  have hc : c.1 = a.toNat := by simpa using List.find?_some hf
  exact ⟨w, hw, hd, by rw [← hc]; exact List.mem_of_find?_eq_some hf⟩

/-- The host's write leaves the byte at its value, or, only where an engine has stored the byte in a race,
at the engine's. -/
theorem State.hostWrite_read_same (s : State) (a : Word) (v : Byte) :
    (s.hostWrite a v).mem.read a.toNat = v ∨ (s.hostWrite a v).mem.read a.toNat ∈ s.storedBytes a := by
  have e : (s.hostWrite a v).mem.read a.toNat = pick (Config.hostWriteChoice s.free) v (s.storedBytes a) :=
    Memory.read_write_same ..
  rw [e]
  exact pick_mem ..

/-- The host's write leaves every other byte as it was. -/
theorem State.hostWrite_read_other (s : State) (a : Word) (v : Byte) {b : Nat} (h : b ≠ a.toNat) :
    (s.hostWrite a v).mem.read b = s.mem.read b := Memory.read_write_other _ _ h

/-! ## A reset in the middle of a command -/

theorem Device.hasKeystream_iff (d : Device) : d.hasKeystream = true ↔ ∃ k, d.nextKeystream = .ok k := by
  unfold Device.hasKeystream
  split <;> simp [*]

/-- When a write can be in flight: a PROCESS past its checks, with a byte left whose step reaches its write. -/
theorem State.mayWrite_iff (s : State) :
    s.mayWrite = true ↔ s.dev.busy = true ∧ decodeCmd s.dev.curCmd = .process ∧ s.dev.procChecked = true ∧
      s.dev.curI.toNat < s.dev.curLen.toNat ∧ (∃ k, s.dev.nextKeystream = .ok k) ∧
      s.accessFails s.dev.srcAddr = false := by
  simp [State.mayWrite, Device.hasKeystream_iff, and_assoc]

/-- All that a reset does to memory. -/
theorem State.dropWrite_cases (s : State) :
    s.dropWrite = s ∨ (s.mayWrite = true ∧ s.dropWrite = s.engineSet s.dev.dstAddr (Config.resetByte s.free)) := by
  unfold State.dropWrite
  split
  · rename_i h
    exact .inr ⟨(Bool.and_eq_true_iff.mp h).1, rfl⟩
  · exact .inl rfl

/-! ## Bus accesses -/

/-- Without errors to come, an access fails only where MemAdmit rejects it. -/
theorem State.accessFails_eq {s : State} (h : s.noBusErrors) (a : Word) :
    s.accessFails a = !s.admits a := by
  have : s.busAnswers.headD false = false := by
    cases hb : s.busAnswers with
    | nil => rfl
    | cons b bs => exact h b (by rw [hb]; exact List.mem_cons_self)
  rw [State.accessFails, this, Bool.or_false]

theorem State.takeAnswer_noBusErrors {s : State} (h : s.noBusErrors) : s.takeAnswer.noBusErrors :=
  fun b hb => h b (List.mem_of_mem_tail hb)

@[simp] theorem State.takeAnswer_admits (s : State) (a : Word) : s.takeAnswer.admits a = s.admits a := rfl

/-! ## Block entry -/

/-- All that `nextKeystream` can answer (41_counter R122, 42_process R132). -/
theorem Device.nextKeystream_cases (d : Device) :
    (d.off ≠ 16 ∧ d.nextKeystream = .ok ⟨d.ks, d.blkcnt, d.off⟩) ∨
    (d.off = 16 ∧ d.mode = .none ∧ d.nextKeystream = .error .notInitialized) ∨
    (d.off = 16 ∧ d.mode ≠ .none ∧ d.ctrOverflows = true ∧ d.nextKeystream = .error .ctrOverflow) ∨
    (d.off = 16 ∧ d.mode ≠ .none ∧ d.ctrOverflows = false ∧ d.nextKeystream =
      .ok ⟨Config.blockEncrypt d.key (counterBlock d.mode d.iv d.blkcnt), d.blkcnt + 1, 0⟩) := by
  unfold Device.nextKeystream Device.enterBlock
  by_cases h : d.off = 16
  · by_cases hm : d.mode = .none
    · simp [h, hm]
    · cases hc : d.ctrOverflows <;> simp [h, hm]
  · simp [h]

/-! ## The byte step -/

/-- All that a byte step can do (42_process R132, R133, R141): no keystream; a failed read; a failed
write; or a store and a commit. -/
theorem State.byteStep_cases (s : State) :
    (∃ c, s.dev.nextKeystream = .error c ∧ s.byteStep = s.finish c) ∨
    (∃ k, s.dev.nextKeystream = .ok k ∧ s.accessFails s.dev.srcAddr = true ∧
      s.byteStep = s.takeAnswer.bumpFree.finish .busError) ∨
    (∃ k, s.dev.nextKeystream = .ok k ∧ s.accessFails s.dev.srcAddr = false ∧
      s.takeAnswer.accessFails s.dev.dstAddr = true ∧
      s.byteStep = (s.takeAnswer.takeAnswer.engineSet s.dev.dstAddr
        (Config.writeErrorByte s.free)).bumpFree.finish .busError) ∨
    (∃ k, s.dev.nextKeystream = .ok k ∧ s.accessFails s.dev.srcAddr = false ∧
      s.takeAnswer.accessFails s.dev.dstAddr = false ∧
      s.byteStep = (s.takeAnswer.takeAnswer.engineStore s.dev.dstAddr
        (s.engineByte s.dev.srcAddr ^^^ k.byte)).bumpFree.withDev (s.dev.commitByte k)) := by
  unfold State.byteStep
  cases hk : s.dev.nextKeystream with
  | error c => exact .inl ⟨c, rfl, rfl⟩
  | ok k =>
    right
    show _ ∨ _ ∨ _
    simp only [State.byteAccess, State.byteWrite]
    cases hs : s.accessFails s.dev.srcAddr with
    | true => exact .inl ⟨k, rfl, rfl, rfl⟩
    | false =>
      right
      cases hd : s.takeAnswer.accessFails s.dev.dstAddr with
      | true => exact .inl ⟨k, rfl, rfl, rfl, by rw [if_neg (by simp), takeAnswer_dev, if_pos hd]; rfl⟩
      | false =>
        exact .inr ⟨k, rfl, rfl, rfl, by rw [if_neg (by simp), takeAnswer_dev, if_neg (by simp [hd])]⟩

/-- All that one engine step of PROCESS can do (42_process R131, R132). -/
theorem State.processStep_cases (s : State) :
    (s.dev.procChecked = false ∧ s.processStep = s.withDev s.dev.processIssue) ∨
    (s.dev.procChecked = true ∧ s.dev.curI.toNat < s.dev.curLen.toNat ∧ s.processStep = s.byteStep) ∨
    (s.dev.procChecked = true ∧ s.dev.curLen.toNat ≤ s.dev.curI.toNat ∧ s.processStep = s.finish .ok) := by
  unfold State.processStep
  cases hc : s.dev.procChecked with
  | false => simp
  | true => by_cases hi : s.dev.curI.toNat < s.dev.curLen.toNat <;> simp [hi, not_lt.mp]

/-- A byte step is due: the step of PROCESS is the byte step. -/
theorem State.processStep_of_due {s : State} (h : s.dev.byteDue) : s.processStep = s.byteStep := by
  rcases s.processStep_cases with ⟨h1, -⟩ | ⟨-, -, e⟩ | ⟨-, h1, -⟩
  · rw [h.1] at h1; cases h1
  · exact e
  · exact absurd h.2.2 (by omega)

/-- A byte step that is due and does not overflow has a keystream. -/
theorem Device.nextKeystream_of_due {d : Device} (h : d.byteDue)
    (hc : d.off = 16 → d.ctrOverflows = false) :
    (d.off ≠ 16 ∧ d.nextKeystream = .ok ⟨d.ks, d.blkcnt, d.off⟩) ∨
    (d.off = 16 ∧ d.nextKeystream =
      .ok ⟨Config.blockEncrypt d.key (counterBlock d.mode d.iv d.blkcnt), d.blkcnt + 1, 0⟩) := by
  rcases d.nextKeystream_cases with h1 | ⟨-, h1, -⟩ | ⟨h0, -, h1, -⟩ | ⟨h0, -, -, h1⟩
  · exact .inl h1
  · exact absurd h1 h.2.1
  · rw [hc h0] at h1; cases h1
  · exact .inr ⟨h0, h1⟩

/-- The byte step whose two accesses are answered stores and commits. -/
theorem State.byteStep_of_admitted {s : State} {k : Keystream} (hk : s.dev.nextKeystream = .ok k)
    (hs : s.admits s.dev.srcAddr = true) (hd : s.admits s.dev.dstAddr = true) (hb : s.noBusErrors) :
    s.byteStep = (s.takeAnswer.takeAnswer.engineStore s.dev.dstAddr
      (s.engineByte s.dev.srcAddr ^^^ k.byte)).bumpFree.withDev (s.dev.commitByte k) := by
  have h1 : s.accessFails s.dev.srcAddr = false := by rw [State.accessFails_eq hb, hs]; rfl
  have h2 : s.takeAnswer.accessFails s.dev.dstAddr = false := by
    rw [State.accessFails_eq (State.takeAnswer_noBusErrors hb), State.takeAnswer_admits, hd]; rfl
  rcases s.byteStep_cases with ⟨c, h, -⟩ | ⟨c, h, h', -⟩ | ⟨c, h, h', h'', -⟩ | ⟨c, h, h', h'', e⟩
  · rw [hk] at h; cases h
  · rw [h1] at h'; cases h'
  · rw [h2] at h''; cases h''
  · rw [hk] at h; cases h; exact e

/-- Taking an answer does not race. -/
theorem State.takeAnswer_unraced {s : State} (h : s.unraced) : s.takeAnswer.unraced := h

/-! ## Devices changing places -/

/-- Putting the devices back gives the state again. -/
@[simp] theorem State.focus_focus (s : State) (k : Nat) : (s.focus k).focus k = s := by
  cases k with
  | zero => rfl
  | succ k =>
    cases h : s.peers[k]? with
    | none => simp [State.focus, h]
    | some d =>
      have hk : k < s.peers.length := (List.getElem?_eq_some_iff.mp h).1
      have hd : s.peers[k] = d := (List.getElem?_eq_some_iff.mp h).2
      simp only [State.focus, h, List.getElem?_set_self hk, List.set_set]
      subst hd
      simp

/-- The device changed into place is device number `k`. -/
theorem State.focus_dev {s : State} {k : Nat} {d : Device} (h : s.device? k = some d) :
    (s.focus k).dev = d := by
  cases k with
  | zero => exact Option.some.inj h
  | succ k => simp only [State.device?] at h; simp [State.focus, h]

@[simp] theorem State.focus_mem (s : State) (k : Nat) : (s.focus k).mem = s.mem := by
  cases k with
  | zero => rfl
  | succ k => simp only [State.focus]; split <;> rfl

@[simp] theorem State.focus_resp (s : State) (k : Nat) : (s.focus k).resp = s.resp := by
  cases k with
  | zero => rfl
  | succ k => simp only [State.focus]; split <;> rfl

@[simp] theorem State.focus_hostQ (s : State) (k : Nat) : (s.focus k).hostQ = s.hostQ := by
  cases k with
  | zero => rfl
  | succ k => simp only [State.focus]; split <;> rfl

@[simp] theorem State.focus_zero (s : State) : s.focus 0 = s := rfl

/-- The devices before and after a change of places are the same, so what holds of all still does. -/
theorem State.focus_forall {P : Device → Prop} {s : State} (k : Nat) (h0 : P s.dev)
    (h : ∀ d ∈ s.peers, P d) : P (s.focus k).dev ∧ ∀ d ∈ (s.focus k).peers, P d := by
  cases k with
  | zero => exact ⟨h0, h⟩
  | succ k =>
    simp only [State.focus]
    split
    · rename_i d hd
      refine ⟨h d (List.mem_of_getElem? hd), fun e he => ?_⟩
      rcases List.mem_or_eq_of_mem_set he with he | he
      · exact h e he
      · exact he ▸ h0
    · exact ⟨h0, h⟩

/-- The window of the first device, when it holds the address, is the one located. -/
theorem State.locate_dev {s : State} {a : Word} (h : s.dev.owns a = true) : s.locate a = some 0 := by
  simp [State.locate, List.findIdx?_cons, h]

end Sys2Proof.Machine
end

