-- ==== Sys2Proof/Laws/PerInstr.lean ====
section
/-! SUPPORT. Per-instruction laws. TableRow: the words of a well-formed instruction match the row of
spec/opcode_table.json that its constructor stands for. -/

namespace Sys2Proof.Laws.TableRow

/-- The words of the instruction match its row of the opcode table (30_encoding R72, R77, R82). -/
def Statement (i : Instr) : Prop := i.WellFormed = true → i.row.covers (encode i) = true

theorem initIv (klen ivlen : BitVec 5) : Statement (.initIv klen ivlen) := fun _ => by
  revert klen ivlen; decide +kernel

theorem initRand (klen ivlen : BitVec 5) : Statement (.initRand klen ivlen) := fun _ => by
  revert klen ivlen; decide +kernel

theorem setIv (ivlen : BitVec 5) : Statement (.setIv ivlen) := fun _ => by
  revert ivlen; decide +kernel

theorem process : Statement .process := fun _ => by decide

theorem encrypt : Statement .encrypt := fun _ => by decide

theorem decrypt : Statement .decrypt := fun _ => by decide

theorem updateIv : Statement .updateIv := fun _ => by decide

theorem illegalCmd (w : Word) : Statement (.illegalCmd w) := fun _ => by
  simp [Instr.row, encode, Row.covers]

theorem wrCmd (data : Word) : Statement (.wrCmd data) := fun _ => rfl

theorem rdStatus : Statement .rdStatus := fun _ => rfl

theorem wrStatus (data : Word) : Statement (.wrStatus data) := fun _ => rfl

theorem rdBlkoff : Statement .rdBlkoff := fun _ => rfl

theorem rdIvOut (k : BitVec 2) : Statement (.rdIvOut k) := fun _ => by revert k; decide

theorem wrSrc (data : Word) : Statement (.wrSrc data) := fun _ => rfl

theorem wrDst (data : Word) : Statement (.wrDst data) := fun _ => rfl

theorem wrLen (data : Word) : Statement (.wrLen data) := fun _ => rfl

theorem rdSrc : Statement .rdSrc := fun _ => rfl

theorem rdDst : Statement .rdDst := fun _ => rfl

theorem rdLen : Statement .rdLen := fun _ => rfl

theorem wrKeyIn (k : BitVec 2) (data : Word) : Statement (.wrKeyIn k data) := fun _ => by
  rcases index_cases k with rfl | rfl | rfl | rfl <;> rfl

theorem wrIvIn (k : BitVec 2) (data : Word) : Statement (.wrIvIn k data) := fun _ => by
  rcases index_cases k with rfl | rfl | rfl | rfl <;> rfl

theorem rdIvIn (k : BitVec 2) : Statement (.rdIvIn k) := fun _ => by revert k; decide

theorem mmioOther (a : Descriptor) (data : Word) : Statement (.mmioOther a data) := fun _ => by
  simp [Instr.row, encode, Row.covers]

end Sys2Proof.Laws.TableRow
end

