-- ==== Sys2Proof/Laws/Step.lean ====
section
/-! SUPPORT. What a step can do, said once. -/

namespace Sys2Proof.Machine

/-- Every meaning answers a next state. -/
theorem exec_answers (i : Instr) (s : State) : ∃ t, exec i s = .next t := by
  cases i with
  | initRand kl il => simp only [exec, execInitRand]; split <;> exact ⟨_, rfl⟩
  | wrCmd d => simp only [exec, execWrCmd]; split <;> exact ⟨_, rfl⟩
  | rdStatus => simp only [exec, execRdStatus]; split <;> exact ⟨_, rfl⟩
  | mmioOther a d => simp only [exec, execMmioOther]; split <;> [skip; split] <;> exact ⟨_, rfl⟩
  | _ => exact ⟨_, rfl⟩

/-- A step is a fetched instruction run on its device, or a step that is no instruction. -/
theorem step_cases {s t : State} (h : step s = .next t) :
    (∃ k i s1 u, s.fetch = .run k i s1 ∧ exec i s1 = .next u ∧ t = u.focus k) ∨ s.fetch = .done t := by
  unfold step at h
  split at h
  · rename_i k i s1 hf
    obtain ⟨u, hu⟩ := exec_answers i s1
    rw [hu] at h
    exact .inl ⟨k, i, s1, u, hf, hu, by cases h; rfl⟩
  · rename_i s1 hf
    cases h
    exact .inr hf

/-- The step of a fetched instruction. -/
theorem step_of_run {s s1 u : State} {k : Nat} {i : Instr} (hf : s.fetch = .run k i s1)
    (hu : exec i s1 = .next u) : step s = .next (u.focus k) := by
  unfold step; rw [hf]; simp [hu, mapNext]

/-- The step that is no instruction. -/
theorem step_of_done {s t : State} (hf : s.fetch = .done t) : step s = .next t := by
  unfold step; rw [hf]

/-- The fetch of an engine's turn. -/
theorem State.fetch_of_engine {s : State} {k : Nat} (h : s.turn = .engine k) :
    s.fetch = fetchEngine { s with sched := s.sched.tail } k := by
  unfold State.fetch; rw [h]

/-- The fetch of the host's turn. -/
theorem State.fetch_of_host {s : State} (h : s.turn = .host) :
    s.fetch = fetchHost { s with sched := s.sched.tail } := by
  unfold State.fetch; rw [h]

/-- All that an engine can fetch: its latched command, when it is there and busy. -/
theorem fetchEngine_cases (s : State) (k : Nat) :
    (∃ d, s.device? k = some d ∧ d.busy = true ∧
      fetchEngine s k = .run k (decodeCmd d.curCmd) (s.focus k)) ∨ fetchEngine s k = .done s := by
  unfold fetchEngine
  split
  · rename_i d hd
    cases hb : d.busy
    · simp
    · exact .inl ⟨d, hd, hb, by simp⟩
  · exact .inr rfl

end Sys2Proof.Machine
end

