-- ==== Sys2Proof/Tests/Slice0.lean ====
section
/-! SUPPORT. Small tests of one step each, their expected values from spec/95_test_vectors.md and the
encodings of spec/30_encoding.md, and for every statement with hypotheses a concrete case that meets
them. -/

namespace Sys2Proof.Tests

open Sys2Proof.Machine

/-! ## Helpers -/

/-- The NIST key of 95_test_vectors. -/
def nistKey : Quad := 0x2b7e151628aed2a6abf7158809cf4f3c

/-- The IV of V-SRC-1. -/
def nistIv : Quad := 0xf0f1f2f3f4f5f6f7f8f9fafbfcfdfeff

/-- The first keystream block of V-SRC-1. -/
def nistKs : Quad := 0xec8cdf7398607cb0f2d21675ea9ea1e4

/-- A device right after reset. -/
def devReset : Device := Device.reset 0 .fault

/-- The device after V-INIT-1. -/
def devW16 : Device := { devReset with key := nistKey, mode := .w16, iv := nistIv, ivIn := ⟨0xf0f1f2f3, 0xf4f5f6f7, 0xf8f9fafb, 0xfcfdfeff⟩ }

/-- The device after V-INIT-2. -/
def devW8 : Device := { devReset with key := nistKey, mode := .w8, iv := 0x0123456789abcdef0000000000000000 }

/-- The reset machine with another device. -/
def on (d : Device) : State := { State.reset with dev := d }

/-- The next state of an outcome. -/
def nextOf : Host.Outcome State Fault Refusal → Option State
  | .next t => some t
  | .fault _ => none
  | .refused _ => none

/-- The machine one engine step after the device accepts a command word. -/
def after (d : Device) (w : Word) : Option State := nextOf (step (on (d.accept w)))

/-- The machine after one host access by its descriptor. -/
def access (d : Device) (a : Descriptor) (data : Word) : Option State :=
  nextOf (step ((on d).place (.mmio a data)))

/-- A PROCESS past its checks: from 0x1000 to 0x3000, `n` bytes, `i` of them done. -/
def running (d : Device) (n : Word) (i : BitVec 33) : Device :=
  { d with busy := true, curCmd := 4, curSrc := 0x1000, curDst := 0x3000, curLen := n, curI := i, procChecked := true }

/-! ## Well-formedness, decoding and encoding -/

theorem test_illegal_rejects_legal_word : (Instr.illegalCmd 0x00002101).WellFormed = false := by decide

theorem test_other_rejects_named_descriptor : (Instr.mmioOther 0x04C 0).WellFormed = false := by decide

theorem test_other_rejects_read_data : (Instr.mmioOther 0x050 1).WellFormed = false := by decide

theorem test_read_words_have_no_data : (Enc.mmio 0x004 1).WellFormed = false := by decide

/-- 30_encoding R71, the fields written out: RSV, IVLEN, KLEN, OP. -/
theorem test_decode_fields :
    decodeCmd (0b000000000000000000#18 ++ 0b01000#5 ++ 0b10000#5 ++ 0b0001#4) = .initIv 16 8 ∧
    decodeCmd (0b000000000000000000#18 ++ 0b10000#5 ++ 0b10000#5 ++ 0b0010#4) = .initRand 16 16 ∧
    decodeCmd (0b000000000000000000#18 ++ 0b01000#5 ++ 0b00000#5 ++ 0b0011#4) = .setIv 8 ∧
    decodeCmd (0b000000000000000000#18 ++ 0b00000#5 ++ 0b00000#5 ++ 0b0100#4) = .process ∧
    decodeCmd (0b000000000000000000#18 ++ 0b00000#5 ++ 0b00000#5 ++ 0b0101#4) = .updateIv ∧
    decodeCmd (0b000000000000000001#18 ++ 0b00000#5 ++ 0b00000#5 ++ 0b0101#4) = .illegalCmd 0x4005 := by
  decide

/-- 95_test_vectors section 3.5, the legal words. -/
theorem test_decode_legal :
    decodeCmd 0x00000001 = .initIv 0 0 ∧ decodeCmd 0x00002101 = .initIv 16 16 ∧
    decodeCmd 0x00000101 = .initIv 16 0 ∧ decodeCmd 0x000020D1 = .initIv 13 16 ∧
    decodeCmd 0x00001ED1 = .initIv 13 15 ∧ decodeCmd 0x00003FF1 = .initIv 31 31 ∧
    decodeCmd 0x00001102 = .initRand 16 8 ∧ decodeCmd 0x00002003 = .setIv 16 ∧
    decodeCmd 0x00001E03 = .setIv 15 := by
  decide

/-- 95_test_vectors section 3.5, the illegal words. -/
theorem test_decode_illegal :
    ([0x00000000, 0x00002013, 0x00000014, 0x00000204, 0x00004004, 0x80000004, 0x00000205, 0x00000006,
      0x0000000F, 0x00003FFF].all fun w => decide (decodeCmd w = .illegalCmd w)) = true := by
  decide

/-- 30_encoding R82, the descriptors written out: W, then OFFSET. -/
theorem test_decode_access :
    decodeMmio (0b1#1 ++ 0x00#8) 7 = .wrCmd 7 ∧ decodeMmio (0b0#1 ++ 0x04#8) 7 = .rdStatus ∧
    decodeMmio (0b1#1 ++ 0x04#8) 7 = .wrStatus 7 ∧ decodeMmio (0b0#1 ++ 0x08#8) 7 = .rdBlkoff ∧
    decodeMmio (0b0#1 ++ 0x44#8) 7 = .rdIvOut 1 ∧ decodeMmio (0b1#1 ++ 0x10#8) 7 = .wrSrc 7 ∧
    decodeMmio (0b1#1 ++ 0x14#8) 7 = .wrDst 7 ∧ decodeMmio (0b1#1 ++ 0x18#8) 7 = .wrLen 7 ∧
    decodeMmio (0b0#1 ++ 0x10#8) 7 = .rdSrc ∧ decodeMmio (0b0#1 ++ 0x14#8) 7 = .rdDst ∧
    decodeMmio (0b0#1 ++ 0x18#8) 7 = .rdLen ∧ decodeMmio (0b1#1 ++ 0x28#8) 7 = .wrKeyIn 2 7 ∧
    decodeMmio (0b1#1 ++ 0x3C#8) 7 = .wrIvIn 3 7 ∧ decodeMmio (0b0#1 ++ 0x34#8) 7 = .rdIvIn 1 := by
  decide

/-- 30_encoding R82, the fallback: CMD and KEY_IN read, BLKOFF and IV_OUT written, a reserved offset, an
offset that is no multiple of 4. -/
theorem test_decode_other :
    decodeMmio 0x000 7 = .mmioOther 0x000 0 ∧ decodeMmio 0x020 7 = .mmioOther 0x020 0 ∧
    decodeMmio 0x108 7 = .mmioOther 0x108 7 ∧ decodeMmio 0x140 7 = .mmioOther 0x140 7 ∧
    decodeMmio 0x0FC 7 = .mmioOther 0x0FC 0 ∧ decodeMmio 0x105 7 = .mmioOther 0x105 7 := by
  decide

/-- The words of the table's rows, and the bits that no format has. -/
theorem test_decode_table_word :
    decodeTableWord 32 0x00002101 = some (.initIv 16 16) ∧ decodeTableWord 16 0x104 = some (.wrStatus 0) ∧
    decodeTableWord 48 0x00000009013C = some (.wrIvIn 3 9) ∧ decodeBits 24 0 = .error (.width 24) ∧
    decodeBits 16 0x200 = .error .descriptorBits ∧ decodeBits 32 0x100000000 = .error .bitsAbove := by
  decide +kernel

/-- 95_test_vectors section 4, program P1: the columns A and D of its statements. -/
theorem test_encode_program_lines :
    encode (.wrKeyIn 3 0x09cf4f3c) = .mmio 0x12C 0x09cf4f3c ∧ encode (.initIv 16 16) = .cmd 0x00002101 ∧
    encode (.wrCmd 0x00000004) = .mmio 0x100 0x00000004 ∧ encode (.rdIvOut 3) = .mmio 0x04C 0 ∧
    encode .updateIv = .cmd 0x00000005 ∧ encode .decrypt = .cmd 0x00000004 := by
  decide

/-! ## Commands -/

/-- V-INIT-1. -/
theorem test_init_iv_w16 :
    (after { devReset with
      keyIn := ⟨0x2b7e1516, 0x28aed2a6, 0xabf71588, 0x09cf4f3c⟩
      ivIn := ⟨0xf0f1f2f3, 0xf4f5f6f7, 0xf8f9fafb, 0xfcfdfeff⟩ } 0x2101).map
      (fun t => (t.statusRead, t.dev.key, t.dev.iv, t.dev.off, t.dev.keyIn)) =
    some (0x42, nistKey, nistIv, 16, ⟨0, 0, 0, 0⟩) := by
  decide

/-- V-SRC-7: a 13-byte key and a 15-byte IV report the key, and the IV stays. -/
theorem test_init_iv_priority :
    (after devW16 0x1ED1).map (fun t => (t.statusRead, t.dev.iv)) = some (0x1142, nistIv) := by
  decide

/-- V-INIT-8: the drawn bytes, byte 0 the most significant. -/
theorem test_init_rand_draw (h : ∀ j < 8, Config.randomByte 5 j = 0xa0 + BitVec.ofNat 8 j) :
    drawnIv 5 8 = 0xa0a1a2a3a4a5a6a70000000000000000 := by
  have e : drawBytes 5 8 = [0xa0, 0xa1, 0xa2, 0xa3, 0xa4, 0xa5, 0xa6, 0xa7] := by
    show (List.range 8).map (Config.randomByte 5) = _
    rw [List.map_congr_left fun j hj => h j (List.mem_range.mp hj)]; decide
  rw [drawnIv, e]; decide

/-- V-INIT-8, V-INIT-9. -/
theorem test_init_rand_status :
    (after devReset 0x1102).map (fun t => (t.statusRead, t.dev.off)) = some (0x22, 16) ∧
    (after devReset 0x20D2).map State.statusRead = some 0x1100 := by
  decide

/-- V-INIT-12: SET_IV changes the width. -/
theorem test_set_iv_w8 :
    (after { devW16 with ivIn := ⟨0x01234567, 0x89abcdef, 0x11111111, 0x22222222⟩ } 0x1003).map
      (fun t => (t.statusRead, t.dev.iv, t.dev.key)) =
    some (0x22, 0x0123456789abcdef0000000000000000, nistKey) := by
  decide

/-- V-INIT-10: SET_IV before initialization. -/
theorem test_set_iv_not_initialized :
    (after devReset 0x2003).map State.statusRead = some 0x1300 := by
  decide

/-- V-PROC-8: the buffer wraps. -/
theorem test_process_addr_range :
    (after { devW16 with src := 0xFFFFFFFF, len := 2 } 4).map (fun t => (t.statusRead, t.mem)) =
    some (0x1642, []) := by
  decide

/-- V-CTR-6: the sub-counter overflows under FAULT. -/
theorem test_process_ctr_overflow :
    (nextOf (step (on (running { devW8 with blkcnt := 0x10000000000000000 } 1 0)))).map
      (fun t => (t.statusRead, t.dev.blkcnt, t.dev.off, t.mem)) =
    some (0x1422, 0x10000000000000000, 16, []) := by
  decide

/-- V-PROC-12, the byte at 0x1003: 0xe2 becomes 0x91 by byte 3 of the cached block. -/
theorem test_encrypt_byte :
    (nextOf (exec .encrypt { on (running { devW16 with ks := nistKs, blkcnt := 1, off := 3 } 5 3) with
      mem := [(0x1003, 0xe2)] })).map (fun t => (t.mem, t.dev.off, t.dev.blkcnt)) =
    some ([(0x1003, 0xe2), (0x3003, 0x91)], 4, 1) := by
  decide

/-- V-SRC-4: the same byte back. -/
theorem test_decrypt_byte :
    (nextOf (exec .decrypt { on (running { devW16 with ks := nistKs, blkcnt := 1, off := 3 } 5 3) with
      mem := [(0x1003, 0x91)] })).map (fun t => t.mem) =
    some [(0x1003, 0x91), (0x3003, 0xe2)] := by
  decide

/-- V-SRC-5, third row: the advance wraps modulo 2^128. -/
theorem test_update_iv_wraps :
    (after { devW16 with iv := 0xfffffffffffffffffffffffffffffffe, blkcnt := 4 } 5).map
      (fun t => (t.statusRead, t.dev.iv, t.dev.blkcnt)) = some (0x42, 2, 0) := by
  decide

/-- V-CTR-10: after an overflow the W8 advance goes on. -/
theorem test_update_iv_w8 :
    (after { devW8 with blkcnt := 0x10000000000000000 } 5).map (fun t => (t.dev.iv, t.dev.off)) =
    some (0x0123456789abcdf00000000000000000, 16) := by
  decide

/-- V-INIT-6. -/
theorem test_illegal_cmd_from_reset :
    (after devReset 0x4101).map (fun t => (t.statusRead, t.dev.mode)) = some (0x1500, .none) := by
  decide

/-- V-CTR-1, V-CTR-3, V-CTR-4: counter blocks, with the carry into the high half in W16 alone. -/
theorem test_counter_blocks :
    counterBlock .w16 nistIv 1 = 0xf0f1f2f3f4f5f6f7f8f9fafbfcfdff00 ∧
    counterBlock .w8 0x0123456789abcdef0000000000000000 0xffffffffffffffff =
      0x0123456789abcdefffffffffffffffff ∧
    counterBlock .w8 0x0123456789abcdef0000000000000000 0x10000000000000000 =
      0x0123456789abcdef0000000000000000 ∧
    counterBlock .w16 0x0000000000000000ffffffffffffffff 1 = 0x00000000000000010000000000000000 := by
  decide

/-! ## Window accesses -/

/-- V-BUSY-1: the command in progress stays latched. -/
theorem test_wr_cmd_busy :
    (access (devW16.accept 4) 0x100 5).map (fun t => (t.dev.ovr, t.dev.curCmd)) = some (true, 4) := by
  decide

/-- 70_reset_and_hazards R204: KEY_IN is latched and cleared for OP 1. -/
theorem test_wr_cmd_latches :
    (access { devReset with keyIn := ⟨1, 2, 3, 4⟩, len := 9 } 0x100 0x2101).map
      (fun t => (t.dev.busy, t.dev.curKey, t.dev.curLen, t.dev.keyIn)) =
    some (true, 0x00000001000000020000000300000004, 9, ⟨0, 0, 0, 0⟩) := by
  decide

/-- P1, line 10. -/
theorem test_rd_status : (access devW16 0x004 0).map (·.resp) = some (.data 0x42) := by decide

/-- V-REG-6 and V-REG-7. -/
theorem test_wr_status :
    (access { devW16 with err := .invalidIvSize, errseen := true, ovr := true } 0x104 0xFFFFFFFF).map
      State.statusRead = some 0x0242 ∧
    (access { devW16 with err := .invalidIvSize, errseen := true, ovr := true } 0x104 0x00001000).map
      State.statusRead = some 0x2242 := by
  decide

/-- V-ADV-7, and the exhausted cursor reads 0. -/
theorem test_rd_blkoff :
    (access { devW16 with off := 4 } 0x008 0).map (·.resp) = some (.data 4) ∧
    (access devW16 0x008 0).map (·.resp) = some (.data 0) := by
  decide

/-- P1, line 19, and V-INIT-2. -/
theorem test_rd_iv_out :
    (access devW16 0x040 0).map (·.resp) = some (.data 0xf0f1f2f3) ∧
    (access devW8 0x044 0).map (·.resp) = some (.data 0x89abcdef) := by
  decide

/-- V-REG-2, and V-BUSY-3: the latched length stays. -/
theorem test_wr_staging :
    (access devReset 0x110 0xdeadbeef).map (·.dev.src) = some 0xdeadbeef ∧
    (access devReset 0x114 0xdeadbeef).map (·.dev.dst) = some 0xdeadbeef ∧
    (access (running devW16 64 0) 0x118 1).map (fun t => (t.dev.len, t.dev.curLen)) = some (1, 64) := by
  decide

theorem test_rd_staging :
    (access { devReset with src := 0xdeadbeef } 0x010 0).map (·.resp) = some (.data 0xdeadbeef) ∧
    (access { devReset with dst := 0xdeadbeef } 0x014 0).map (·.resp) = some (.data 0xdeadbeef) ∧
    (access { devReset with len := 0xdeadbeef } 0x018 0).map (·.resp) = some (.data 0xdeadbeef) := by
  decide

/-- V-REG-3: KEY_IN0 is stored and reads 0. -/
theorem test_wr_key_in :
    (access devReset 0x120 0x12345678).map (·.dev.keyIn) = some ⟨0x12345678, 0, 0, 0⟩ ∧
    (access { devReset with keyIn := ⟨0x12345678, 0, 0, 0⟩ } 0x020 0).map (·.resp) = some (.data 0) := by
  decide

/-- V-REG-4. -/
theorem test_iv_in :
    (access devReset 0x134 0xabcdef01).map (·.dev.ivIn) = some ⟨0, 0xabcdef01, 0, 0⟩ ∧
    (access { devReset with ivIn := ⟨0, 0xabcdef01, 0, 0⟩ } 0x034 0).map (·.resp) =
      some (.data 0xabcdef01) := by
  decide

/-- V-REG-10 and 20_memory R51. -/
theorem test_other_accesses :
    (access devReset 0x050 0).map (·.resp) = some (.data 0) ∧
    (access devReset 0x150 0xffffffff).map (fun t => (t.resp, t.dev)) = some (.ack, devReset) ∧
    (access devReset 0x106 0xffffffff).map (fun t => (t.resp, t.hostFault, t.dev)) =
      some (.busError, true, devReset) := by
  decide

/-- An instruction placed by its bits is the first one to run from reset. -/
theorem test_with_fetch_word :
    (nextOf (step (State.reset.withFetchWord 32 0x00000005))).map State.statusRead = some 0x1300 ∧
    (nextOf (step (State.reset.withFetchWord 16 0x004))).map (·.resp) = some (.data 0) := by
  decide

/-! ## Memory and the host's own accesses -/

/-- A write keeps the addresses rising, and writing what an unlisted byte reads as removes the entry. -/
theorem test_memory_form :
    Memory.write [(1, 5), (9, 5)] 4 7 = [(1, 5), (4, 7), (9, 5)] ∧
    Memory.write [(1, 5), (9, 5)] 9 0 = [(1, 5)] ∧ Memory.wf [(4, 7), (4, 8)] = false ∧
    Memory.wf [(4, 0)] = false ∧ Memory.wf [(2 ^ 32, 1)] = false := by
  decide

/-- An in-place PROCESS of two bytes that has stored its first. -/
def racing : State := { on devReset with
  mem := [(0x1000, 6)]
  races := [⟨0, 0x1000, 0x1000, 2, [], [], [(0x1000, 6)]⟩] }

/-- 20_memory R63: a write to a byte that the command has stored ends as either write, and to a byte the
command has not stored yet as the host's. -/
theorem test_host_write_race :
    ((racing.hostWrite 0x1000 7).mem = [(0x1000, 7)] ∨ (racing.hostWrite 0x1000 7).mem = [(0x1000, 6)]) ∧
    (racing.hostWrite 0x1001 7).mem = [(0x1000, 6), (0x1001, 7)] := by
  refine ⟨?_, by decide⟩
  rcases Nat.mod_two_eq_zero_or_one (Config.hostWriteChoice 0) with h | h
  · left
    show Memory.write _ _ ([7, 6].getD (Config.hostWriteChoice 0 % 2) 7) = _
    rw [h]; decide
  · right
    show Memory.write _ _ ([7, 6].getD (Config.hostWriteChoice 0 % 2) 7) = _
    rw [h]; decide

/-- V-PROC-12, a reset before byte 3 whose read is refused; V-CTR-6, a reset before the overflow: no write
is in flight. -/
theorem test_reset_no_write_in_flight :
    ({ on (running { devW16 with ks := nistKs, blkcnt := 1, off := 3 } 5 3) with
      memAdmit := [⟨0, 0x1003⟩] } : State).mayWrite = false ∧
    (on (running { devW8 with blkcnt := 0x10000000000000000 } 1 0)).mayWrite = false ∧
    (on (running { devW16 with ks := nistKs, blkcnt := 1, off := 3 } 5 3)).mayWrite = true := by
  decide

/-! ## A concrete case for the hypotheses of every statement -/

/-- A device that runs a PROCESS of 5 bytes with 3 done in the first block. -/
def devMid : Device := running { devW16 with ks := nistKs, blkcnt := 1, off := 3 } 5 3

/-- A device at the first byte of a PROCESS of 5 bytes. -/
def devFirst : Device := running devW16 5 0

/-- A second device, at 0x100. -/
def devPeer : Device := { running devW8 2 0 with base := 0x100 }

/-- Two devices, the second one's turn. -/
def twoDevices : State := { on devW16 with peers := [devPeer], sched := [.engine 1] }

/-- The host's next operation, on the reset machine with another device. -/
def hosting (d : Device) (op : HostOp) : State := { on d with hostQ := [op], sched := [.host] }

/-- A race on the byte at 0x1003 and on the one at 0x3003. -/
def raced : State := { on devMid with
  mem := [(0x1003, 9), (0x3003, 8)]
  races := [⟨0, 0x1000, 0x3000, 5, [(0x3003, 1)], [(0x3003, 1), (0x1003, 2)], [(0x3002, 6)]⟩] }

theorem on_unraced (d : Device) : (on d).unraced := fun _ h => by cases h

theorem on_noBusErrors (d : Device) : (on d).noBusErrors := fun _ h => by cases h

theorem witness_DecodeEncodeRoundTrip :
    (Instr.illegalCmd 0x4004).WellFormed = true ∧ (Instr.mmioOther 0x150 1).WellFormed = true ∧
    (Instr.mmioOther 0x050 0).WellFormed = true ∧ Instr.decrypt.WellFormed = true := by
  decide

theorem witness_EncodeDecodeRoundTrip :
    (Enc.cmd 0x3FFF).WellFormed = true ∧ (Enc.mmio 0x1FF 0xFFFFFFFF).WellFormed = true ∧
    (Enc.mmio 0x0FF 0).WellFormed = true := by
  decide

/-- One word for each way to be illegal. -/
theorem witness_IllegalWordFails :
    ([0x4101, 0x00000000, 0x00000006, 0x00002013, 0x00000014, 0x00000204, 0x00000205].all fun w =>
      decide ((on (devW16.accept w)).turn = .engine 0 ∧ (on (devW16.accept w)).dev.busy = true ∧
      ((devW16.accept w).curCmd.extractLsb' 14 18 ≠ 0 ∨
        (devW16.accept w).curCmd.extractLsb' 0 4 = 0 ∨ 6 ≤ ((devW16.accept w).curCmd.extractLsb' 0 4).toNat ∨
        ((devW16.accept w).curCmd.extractLsb' 0 4 = 3 ∧ (devW16.accept w).curCmd.extractLsb' 4 5 ≠ 0) ∨
        (((devW16.accept w).curCmd.extractLsb' 0 4 = 4 ∨ (devW16.accept w).curCmd.extractLsb' 0 4 = 5) ∧
          ((devW16.accept w).curCmd.extractLsb' 4 5 ≠ 0 ∨ (devW16.accept w).curCmd.extractLsb' 9 5 ≠ 0))))) =
    true := by
  decide

/-- The last offset of the first window, and the first of the second. -/
theorem witness_ResetSetsEveryElement :
    ((hosting devMid (.resetInput 0xFF)).turn = .host ∧
      (hosting devMid (.resetInput 0xFF)).hostQ = [.resetInput 0xFF] ∧
      (hosting devMid (.resetInput 0xFF)).locate 0xFF = some 0 ∧
      (hosting devMid (.resetInput 0xFF)).device? 0 = some devMid) ∧
    twoDevices.locate 0x100 = some 1 ∧ twoDevices.device? 1 = some devPeer := by
  decide

theorem witness_ResetKeepsMemory :
    (hosting devMid (.resetInput 0)).turn = .host ∧
    (hosting devMid (.resetInput 0)).hostQ = .resetInput 0 :: [] ∧
    (hosting devMid (.resetInput 0)).locate 0 = some 0 ∧
    (hosting devMid (.resetInput 0)).device? 0 = some devMid ∧
    (devMid.busy = true → devMid.procChecked = true → devMid.curI.toNat < devMid.curLen.toNat →
      decodeCmd devMid.curCmd = .process → (∃ ks, devMid.nextKeystream = .ok ks) →
      (hosting devMid (.resetInput 0)).accessFails devMid.srcAddr = false →
      (0x3004 : Nat) ≠ devMid.dstAddr.toNat) :=
  ⟨rfl, rfl, by decide, rfl, fun _ _ _ _ _ _ => by decide⟩

/-- V-PROC-12 at byte 3: its read is refused, so its destination byte is covered too. -/
theorem witness_ResetKeepsMemory_refused :
    ({ hosting devMid (.resetInput 0) with memAdmit := [⟨0, 0x1003⟩] } : State).accessFails devMid.srcAddr ≠
      false := by
  decide

theorem devMid_inv : devMid.Inv := by constructor <;> decide

theorem devPeer_inv : devPeer.Inv := by constructor <;> decide

theorem devW16_inv : devW16.Inv := by constructor <;> decide

theorem witness_StepKeepsInvariant :
    ∃ t, ({ twoDevices with mem := [(0x1003, 9)] } : State).Inv ∧
      step { twoDevices with mem := [(0x1003, 9)] } = .next t :=
  ⟨_, ⟨devW16_inv, by simpa [twoDevices] using devPeer_inv, by decide⟩, rfl⟩

theorem witness_StepKeepsKeystream :
    ∃ t, twoDevices.Inv ∧ twoDevices.dev.KsConsistent ∧ (∀ d ∈ twoDevices.peers, d.KsConsistent) ∧
      step twoDevices = .next t :=
  ⟨_, ⟨devW16_inv, by simpa [twoDevices] using devPeer_inv, by decide⟩, fun h => absurd rfl h,
    fun d hd h => by
      have : d = devPeer := by simpa [twoDevices] using hd
      subst this; exact absurd rfl h, rfl⟩

theorem witness_DevicesIsolated :
    ∃ t, twoDevices.turn = .engine 1 ∧ (0 : Nat) ≠ 1 ∧ step twoDevices = .next t :=
  ⟨_, rfl, by decide, rfl⟩

/-- Elements that change, for the clauses of StateWriters on KEY, MODE, IV, BLKCNT, OFF, BUSY, ERR and
ERRSEEN, by commands. -/
theorem witness_StateWriters_commands :
    (∃ t, exec (.initIv 16 8) (on { devReset with curKey := 1 }) = .next t ∧ t.dev.key ≠ devReset.key ∧
      t.dev.mode ≠ devReset.mode ∧ t.dev.curKey ≠ 1) ∧
    (∃ t, exec .updateIv (on { devW8 with blkcnt := 1, off := 5 }) = .next t ∧ t.dev.iv ≠ devW8.iv ∧
      t.dev.blkcnt ≠ 1 ∧ t.dev.off ≠ 5) ∧
    (∃ t, exec (.illegalCmd 0) (on (devW8.accept 0)) = .next t ∧ t.dev.busy ≠ true ∧
      t.dev.err ≠ devW8.err ∧ t.dev.errseen ≠ devW8.errseen) :=
  ⟨⟨_, rfl, by decide⟩, ⟨_, rfl, by decide⟩, ⟨_, rfl, by decide⟩⟩

/-- Elements that change, for the clauses of StateWriters on the window's registers and the latches, by
accesses. -/
theorem witness_StateWriters_accesses :
    (∃ t, exec (.wrCmd 4) (on { devReset with len := 9, keyIn := ⟨0, 0, 0, 1⟩, curI := 3 }) = .next t ∧
      t.dev.busy ≠ devReset.busy ∧ t.dev.curLen ≠ devReset.curLen ∧ t.dev.curKey ≠ devReset.curKey ∧
      t.dev.curI ≠ 3) ∧
    (∃ t, exec (.wrCmd 1) (on { devReset with keyIn := ⟨0, 0, 0, 1⟩ }) = .next t ∧ t.dev.keyIn ≠ ⟨0, 0, 0, 1⟩) ∧
    (∃ t, exec (.wrCmd 4) (on devMid) = .next t ∧ t.dev.ovr ≠ devMid.ovr) ∧
    (∃ t, exec (.wrStatus 0x3000) (on { devReset with errseen := true, ovr := true }) = .next t ∧
      t.dev.errseen ≠ true ∧ t.dev.ovr ≠ true) ∧
    (∃ t, exec (.wrKeyIn 0 1) (on devReset) = .next t ∧ t.dev.keyIn ≠ devReset.keyIn) ∧
    (∃ t, exec (.wrIvIn 0 1) (on devReset) = .next t ∧ t.dev.ivIn ≠ devReset.ivIn) ∧
    (∃ t, exec (.wrSrc 1) (on devReset) = .next t ∧ t.dev.src ≠ devReset.src) ∧
    (∃ t, exec (.wrDst 1) (on devReset) = .next t ∧ t.dev.dst ≠ devReset.dst) ∧
    (∃ t, exec (.wrLen 1) (on devReset) = .next t ∧ t.dev.len ≠ devReset.len) :=
  ⟨⟨_, rfl, by decide⟩, ⟨_, rfl, by decide⟩, ⟨_, rfl, by decide⟩, ⟨_, rfl, by decide⟩, ⟨_, rfl, by decide⟩,
    ⟨_, rfl, by decide⟩, ⟨_, rfl, by decide⟩, ⟨_, rfl, by decide⟩, ⟨_, rfl, by decide⟩⟩

/-- A device whose cache holds another block than the next one. -/
def devStale : Device := { devFirst with ks := Config.blockEncrypt nistKey nistIv + 1 }

/-- The clauses of StateWriters for a byte step: a block entry changes KS, BLKCNT, OFF and CUR_I. -/
theorem witness_StateWriters_byteStep :
    ∃ t, exec .process (on devStale) = .next t ∧ t.dev.ks ≠ devStale.ks ∧ devStale.off = 16 ∧
      t.dev.blkcnt ≠ devStale.blkcnt ∧ t.dev.off ≠ devStale.off ∧ t.dev.curI ≠ devStale.curI := by
  have hd : (on devStale).dev.byteDue := ⟨rfl, by decide, by decide⟩
  rcases Device.nextKeystream_of_due hd (fun _ => rfl) with ⟨h0, -⟩ | ⟨-, hk⟩
  · exact absurd rfl h0
  · refine ⟨_, congrArg Host.Outcome.next ((State.processStep_of_due hd).trans
      (State.byteStep_of_admitted hk (by decide) (by decide) (on_noBusErrors _))), ?_, rfl, ?_⟩
    · have e : counterBlock .w16 nistIv 0 = nistIv := by decide
      show Config.blockEncrypt nistKey (counterBlock .w16 nistIv 0) ≠ Config.blockEncrypt nistKey nistIv + 1
      rw [e]
      intro hx
      simp at hx
    · show (0 + 1 : Quad) ≠ 0 ∧ ((0 : Fin 17) + 1 ≠ 16) ∧ ((0 : BitVec 33) + 1 ≠ 0)
      decide

theorem witness_WindowReadsChangeNothing :
    ∃ t, (0x004 : Descriptor).msb = false ∧ exec (decodeMmio 0x004 0) (on devMid) = .next t :=
  ⟨_, by decide, rfl⟩

/-- KEY_IN0 read while busy, and STATUS read while idle. -/
theorem witness_KeyIsNotReadable :
    ((0x020 : Descriptor).msb = false ∧ decodeMmio 0x020 0 ≠ .rdStatus ∧ decodeMmio 0x020 0 ≠ .rdBlkoff ∧
      ∀ k, decodeMmio 0x020 0 ≠ .rdIvOut k) ∧
    ((0x004 : Descriptor).msb = false ∧ (on devW16).dev.busy = false) := by
  decide

theorem witness_EngineStepRunsCommand :
    twoDevices.turn = .engine 1 ∧ twoDevices.device? 1 = some devPeer ∧ devPeer.busy = true := by
  decide

/-- The first offset of the second window is the second device's. -/
theorem witness_HostStepRunsAccess :
    let s := { twoDevices with sched := [.host], hostQ := [.access true .word 0x100 5] }
    s.turn = .host ∧ s.hostQ = .access true .word 0x100 5 :: [] ∧ s.locate 0x100 = some 1 ∧
      s.device? 1 = some devPeer := by
  decide

theorem witness_IdleSteps :
    (State.reset.turn = .host ∧ State.reset.hostQ = []) ∧
    (({ on devW16 with sched := [.engine 0] } : State).turn = .engine 0 ∧ devW16.busy = false) ∧
    ((hosting devW16 (.access false .word 0x100 0)).turn = .host ∧
      (hosting devW16 (.access false .word 0x100 0)).locate 0x100 = none) := by
  decide

/-- A byte access at offset 0, and a word access at the window's last offset. -/
theorem witness_BadAccessIsBusError :
    ((hosting devW16 (.access true .byte 0 0)).turn = .host ∧
      (hosting devW16 (.access true .byte 0 0)).locate 0 = some 0 ∧ AccessSize.byte ≠ AccessSize.word) ∧
    ((hosting devW16 (.access true .word 0xFF 0)).turn = .host ∧
      (hosting devW16 (.access true .word 0xFF 0)).locate 0xFF = some 0 ∧
      (hosting devW16 (.access true .word 0xFF 0)).device? 0 = some devW16 ∧
      ((0xFF : Word) - devW16.base).toNat % 4 ≠ 0) := by
  decide

theorem witness_WaitPollsStatus :
    ((hosting devW16 (.wait 0)).turn = .host ∧ (hosting devW16 (.wait 0)).locate 0 = some 0 ∧
      (hosting devW16 (.wait 0)).device? 0 = some devW16 ∧ devW16.busy = false) ∧
    ((hosting devMid (.wait 0)).turn = .host ∧ (hosting devMid (.wait 0)).locate 0 = some 0 ∧
      (hosting devMid (.wait 0)).device? 0 = some devMid ∧ devMid.busy = true) := by
  decide

/-- For CmdWriteAccepts, StatusReadIdle, BlkoffReads, IvOutReads and StatusReadEndsRaces an idle device;
for CmdWriteDropped and BusyReads a busy one. -/
theorem witness_idle_and_busy : (on devW16).dev.busy = false ∧ (on devMid).dev.busy = true := by decide

/-- The clauses of CmdWriteAccepts: OP 1, OP 2 and another. -/
theorem witness_CmdWriteAccepts :
    (on devW16).dev.busy = false ∧ (0x2101 : Word).extractLsb' 0 4 = 1 ∧
    (0x2102 : Word).extractLsb' 0 4 = 2 ∧ (0x2003 : Word).extractLsb' 0 4 = 3 := by
  decide

theorem witness_StagingBytePacking : (0 : Nat) < 4 ∧ (3 : Nat) < 4 := by decide

/-- IvOutReads in W8: index 2 is the first that reads 0. -/
theorem witness_IvOutReads :
    (on devW8).dev.busy = false ∧ (on devW8).dev.Inv ∧ devW8.mode = .w8 ∧ 2 ≤ (2 : BitVec 2).toNat :=
  ⟨rfl, by constructor <;> decide, rfl, by decide⟩

theorem witness_OtherAccesses :
    (0x0FC : Descriptor).extractLsb' 0 2 = 0 ∧ (0x0FC : Descriptor).msb = false ∧
    (0x100 : Descriptor).extractLsb' 0 2 = 0 ∧ (0x100 : Descriptor).msb = true := by
  decide

/-- Lengths on both sides of every bound. -/
theorem witness_InitRandResult :
    (15 : BitVec 5).toNat ≠ 16 ∧ (17 : BitVec 5).toNat ≠ 16 ∧ (16 : BitVec 5).toNat = 16 ∧
    ((7 : BitVec 5).toNat ≠ 8 ∧ (7 : BitVec 5).toNat ≠ 16) ∧
    ((17 : BitVec 5).toNat ≠ 8 ∧ (17 : BitVec 5).toNat ≠ 16) ∧
    ((8 : BitVec 5).toNat = 8 ∨ (8 : BitVec 5).toNat = 16) := by
  decide

theorem witness_FailedInitKeepsCipher :
    ∃ t, exec (.initIv 13 16) (on (devW16.accept 0x20D1)) = .next t ∧ t.dev.err ≠ .ok :=
  ⟨_, rfl, by decide⟩

theorem witness_UpdateIvResult :
    (on devReset).dev.mode = .none ∧ (on devW16).dev.mode ≠ .none ∧ (on devW16).dev.mode = .w16 ∧
    (on devW8).dev.mode ≠ .none ∧ (on devW8).dev.mode = .w8 := by
  decide

/-- The highest index of a W8 sample. -/
theorem witness_CounterBlocksDistinct :
    (0 : Quad) ≠ 0xffffffffffffffff ∧ (0 : Quad).toNat < 2 ^ 64 ∧
    (0xffffffffffffffff : Quad).toNat < 2 ^ 64 := by
  decide +kernel

theorem witness_NextSampleContinues :
    (∃ t, (on { devW16 with blkcnt := 4 }).dev.mode = .w16 ∧
      exec .updateIv (on { devW16 with blkcnt := 4 }) = .next t) ∧
    (0 < 2 ^ 64 - 1 ∧ 2 ^ 64 - 1 < 2 ^ 64) :=
  ⟨⟨_, rfl, rfl⟩, by norm_num⟩

/-- The three outcomes of the issue checks, the address bound on both sides. -/
theorem witness_ProcessIssueChecks :
    ((on (devReset.accept 4)).dev.procChecked = false ∧ (devReset.accept 4).mode = .none) ∧
    (({ devW16 with src := 0xFFFFFFFF, len := 2 }.accept 4).procChecked = false ∧
      (({ devW16 with src := 0xFFFFFFFF, len := 2 }.accept 4).curSrc.toNat + 2 > 2 ^ 32)) ∧
    (({ devW16 with src := 0xFFFFFFFF, len := 1 }.accept 4).procChecked = false ∧
      ¬ (({ devW16 with src := 0xFFFFFFFF, len := 1 }.accept 4).curSrc.toNat + 1 > 2 ^ 32)) := by
  decide +kernel

theorem devMid_due : devMid.byteDue := ⟨rfl, by decide, by decide⟩

theorem devFirst_due : devFirst.byteDue := ⟨rfl, by decide, by decide⟩

theorem witness_ByteStepResult :
    (devMid.byteDue ∧ devMid.off ≠ 16 ∧ (devMid.off = 16 → devMid.ctrOverflows = false) ∧
      (on devMid).admits devMid.srcAddr = true ∧ (on devMid).admits devMid.dstAddr = true ∧
      (on devMid).noBusErrors ∧ (on devMid).unraced) ∧
    (devFirst.byteDue ∧ devFirst.off = 16 ∧ devFirst.ctrOverflows = false ∧
      (on devFirst).admits devFirst.srcAddr = true ∧ (on devFirst).admits devFirst.dstAddr = true ∧
      (on devFirst).noBusErrors ∧ (on devFirst).unraced) :=
  ⟨⟨devMid_due, by decide, by decide, by decide, by decide, on_noBusErrors _, on_unraced _⟩,
    devFirst_due, by decide, by decide, by decide, by decide, on_noBusErrors _, on_unraced _⟩

/-- The sub-counter's last index and the one after it. -/
theorem witness_OverflowFails :
    ((running { devW8 with blkcnt := 0x10000000000000000 } 1 0).byteDue ∧
      (running { devW8 with blkcnt := 0x10000000000000000 } 1 0).off = 16 ∧
      2 ^ 64 ≤ (0x10000000000000000 : Quad).toNat ∧ devW8.mode = .w8 ∧ devW8.policy = .fault) ∧
    ((running { devW8 with blkcnt := 0xffffffffffffffff } 1 0).byteDue ∧
      (0xffffffffffffffff : Quad).toNat < 2 ^ 64) :=
  ⟨⟨⟨rfl, by decide, by decide⟩, rfl, by decide +kernel, rfl, rfl⟩, ⟨rfl, by decide, by decide⟩,
    by decide +kernel⟩

/-- A platform that admits neither buffer, one that admits the source alone, and one that answers the
first or the second access with an error. -/
theorem witness_BusErrorEndsCommand :
    devMid.byteDue ∧ (devMid.off = 16 → devMid.ctrOverflows = false) ∧
    ({ on devMid with memAdmit := [⟨0, 0x1003⟩] } : State).admits devMid.srcAddr = false ∧
    ({ on devMid with busAnswers := [true] } : State).busAnswers.head? = some true ∧
    ({ on devMid with memAdmit := [⟨0, 0x1004⟩] } : State).admits devMid.srcAddr = true ∧
    ({ on devMid with memAdmit := [⟨0, 0x1004⟩] } : State).busAnswers.head? ≠ some true ∧
    ({ on devMid with memAdmit := [⟨0, 0x1004⟩] } : State).admits devMid.dstAddr = false ∧
    ({ on devMid with busAnswers := [false, true] } : State).busAnswers.tail.head? = some true :=
  ⟨devMid_due, by decide, by decide, by decide, by decide, by decide, by decide, by decide⟩

theorem witness_FailedByteStepCommitsNothing :
    ∃ t, (running { devW8 with blkcnt := 0x10000000000000000 } 1 0).byteDue ∧
      exec .process (on (running { devW8 with blkcnt := 0x10000000000000000 } 1 0)) = .next t ∧
      t.dev.procChecked = false ∧ t.dev.err ≠ .busError :=
  ⟨_, ⟨rfl, by decide, by decide⟩, rfl, by decide, by decide⟩

theorem witness_ProcessCompletes :
    (on (running devW16 5 5)).dev.procChecked = true ∧
    (running devW16 5 5).curLen.toNat ≤ (running devW16 5 5).curI.toNat := by
  decide

/-- V-PROC-1. -/
theorem witness_EmptyProcessChangesNothing :
    (on ({ devW16 with src := 0xFFFFFFFF }.accept 4)).dev.procChecked = false ∧
    ({ devW16 with src := 0xFFFFFFFF }.accept 4).mode ≠ .none ∧
    ({ devW16 with src := 0xFFFFFFFF }.accept 4).curLen = 0 := by
  decide

theorem devFirst_sample : devFirst.SampleAt 0 := ⟨rfl, rfl, fun h => absurd rfl h⟩

/-- The fourth byte of a sample, the cache holding the first block. -/
theorem witness_ByteStepCountsSample :
    ∃ t, ({ devMid with ks := Config.blockEncrypt nistKey nistIv } : Device).byteDue ∧
      ({ devMid with ks := Config.blockEncrypt nistKey nistIv } : Device).SampleAt 3 ∧
      exec .process (on { devMid with ks := Config.blockEncrypt nistKey nistIv }) = .next t ∧
      t.dev.procChecked = true := by
  have hd : (on { devMid with ks := Config.blockEncrypt nistKey nistIv }).dev.byteDue :=
    ⟨rfl, by decide, by decide⟩
  have e : counterBlock .w16 nistIv (BitVec.ofNat 128 (3 / 16)) = nistIv := by decide
  refine ⟨_, hd, ⟨rfl, rfl, fun _ => ?_⟩, rfl, ?_⟩
  · show Config.blockEncrypt nistKey nistIv =
      Config.blockEncrypt nistKey (counterBlock .w16 nistIv (BitVec.ofNat 128 (3 / 16)))
    rw [e]
  · rcases Device.nextKeystream_of_due hd (fun _ => rfl) with ⟨-, hk⟩ | ⟨h0, -⟩
    · rw [State.processStep_of_due hd,
        State.byteStep_of_admitted hk (by decide) (by decide) (on_noBusErrors _)]
      rfl
    · exact absurd h0 (by decide)

theorem witness_BlkoffCountsBytes :
    (on { devW16 with blkcnt := 1 }).dev.busy = false ∧ ({ devW16 with blkcnt := 1 } : Device).SampleAt 16 :=
  ⟨rfl, rfl, rfl, fun h => absurd rfl h⟩

/-- For ProcessClosedForm, disjoint buffers at the start of a sample. -/
theorem witness_ProcessClosedForm :
    devFirst.procChecked = true ∧ devFirst.mode ≠ .none ∧ devFirst.curI = 0 ∧
    devFirst.curLen.toNat = 5 ∧ devFirst.rangeWraps = false ∧ devFirst.SampleAt 0 ∧
    (devFirst.mode = .w8 → devFirst.policy = .fault → (0 + 5 + 15) / 16 ≤ 2 ^ 64) ∧
    (devFirst.curDst = devFirst.curSrc ∨ devFirst.curSrc.toNat + 5 ≤ devFirst.curDst.toNat ∨
      devFirst.curDst.toNat + 5 ≤ devFirst.curSrc.toNat) ∧
    (on devFirst).admitsRange devFirst.curSrc 5 ∧ (on devFirst).admitsRange devFirst.curDst 5 ∧
    (on devFirst).noBusErrors ∧ (on devFirst).unraced := by
  refine ⟨rfl, by decide, rfl, rfl, by decide, devFirst_sample, by decide, by decide, ?_, ?_,
    on_noBusErrors _, on_unraced _⟩ <;> (unfold State.admitsRange; decide)

/-- For ProcessClosedForm, the buffer in place. -/
theorem witness_ProcessClosedForm_in_place :
    ({ devFirst with curDst := 0x1000 } : Device).curDst = ({ devFirst with curDst := 0x1000 } : Device).curSrc ∧
    ({ devFirst with curDst := 0x1000 } : Device).rangeWraps = false ∧
    ({ devFirst with curDst := 0x1000 } : Device).SampleAt 0 ∧
    (on { devFirst with curDst := 0x1000 }).admitsRange 0x1000 5 := by
  refine ⟨rfl, by decide, ⟨rfl, rfl, fun h => absurd rfl h⟩, ?_⟩
  unfold State.admitsRange; decide

/-- For DecryptInvertsEncrypt, disjoint buffers, the second run back into the first's source. -/
theorem witness_DecryptInvertsEncrypt :
    ∃ t, devFirst.procChecked = true ∧ devFirst.mode ≠ .none ∧ devFirst.curI = 0 ∧
    devFirst.curLen.toNat = 5 ∧ devFirst.rangeWraps = false ∧ (0x1000 : Word).toNat + 5 ≤ 2 ^ 32 ∧
    devFirst.SampleAt 0 ∧
    (devFirst.mode = .w8 → devFirst.policy = .fault → (0 + 5 + 15) / 16 ≤ 2 ^ 64) ∧
    (devFirst.curDst = devFirst.curSrc ∨ devFirst.curSrc.toNat + 5 ≤ devFirst.curDst.toNat ∨
      devFirst.curDst.toNat + 5 ≤ devFirst.curSrc.toNat) ∧
    ((0x1000 : Word) = devFirst.curDst ∨ devFirst.curDst.toNat + 5 ≤ (0x1000 : Word).toNat ∨
      (0x1000 : Word).toNat + 5 ≤ devFirst.curDst.toNat) ∧
    (on devFirst).admitsRange devFirst.curSrc 5 ∧ (on devFirst).admitsRange devFirst.curDst 5 ∧
    (on devFirst).admitsRange 0x1000 5 ∧ (on devFirst).noBusErrors ∧ (on devFirst).unraced ∧
    execTimes .encrypt (5 + 1) (on devFirst) = .next t := by
  refine ⟨_, rfl, by decide, rfl, rfl, by decide, by decide, devFirst_sample, by decide, by decide, by decide,
    ?_, ?_, ?_, on_noBusErrors _, on_unraced _, rfl⟩ <;> (unfold State.admitsRange; decide)

theorem witness_CommandEndsInTime :
    (on (devW16.accept 4)).sched = [] ∧ (on (devW16.accept 4)).dev.busy = true ∧
    (on (devW16.accept 4)).dev.procChecked = false := by
  decide

theorem witness_HostMemoryAccess :
    (let s := { raced with sched := [.host], hostQ := [.memRead 0x3003] }
     s.turn = .host ∧ s.hostQ = .memRead 0x3003 :: []) ∧
    (let s := { raced with sched := [.host], hostQ := [.memWrite 0x3002 7] }
     s.turn = .host ∧ s.hostQ = .memWrite 0x3002 7 :: [] ∧ s.storedBytes 0x3002 = [6]) ∧
    (let s := { raced with sched := [.host], hostQ := [.memWrite 0xFFFFFFFF 7] }
     s.turn = .host ∧ s.hostQ = .memWrite 0xFFFFFFFF 7 :: [] ∧ s.storedBytes 0xFFFFFFFF = []) := by
  decide

theorem witness_RacedByteIsEither :
    raced.dev.byteDue ∧ (raced.dev.off = 16 → raced.dev.ctrOverflows = false) ∧
    raced.admits raced.dev.srcAddr = true ∧ raced.admits raced.dev.dstAddr = true ∧ raced.noBusErrors ∧
    raced.overwritten raced.dev.srcAddr = [2] ∧ raced.overwritten raced.dev.dstAddr = [1] :=
  ⟨devMid_due, by decide, by decide, by decide, fun _ h => (by cases h), by decide, by decide⟩

theorem witness_LoadKeyStagesKey :
    let s := { on devReset with sched := [.host, .host, .host, .host], hostQ := loadKey 0 nistKey ++ [] }
    s.sched = [.host, .host, .host, .host] ∧ s.hostQ = loadKey s.dev.base nistKey ++ [] :=
  ⟨rfl, rfl⟩

end Sys2Proof.Tests
end

section
/-! SUPPORT. The window's two read-only views of cipher state, BLKOFF and IV_OUT (10_state R34, R38), and
the reset input (10_state R43): what each does, then the statements about them. -/

namespace Sys2Proof.Machine

/-! ## Accesses that no row of the table names -/

/-- A descriptor of no named row is the fallback, which keeps the data of a write (30_encoding R82). -/
theorem decodeMmio_of_unnamed {a : Descriptor} (h : namedDescriptor a = false) (d : Word) :
    decodeMmio a d = .mmioOther a (if a.msb then d else 0) := by
  simp only [namedDescriptor, exactDescriptors, indexedDescriptors, Bool.or_eq_false_iff,
    List.contains_cons, List.contains_nil, beq_eq_false_iff_ne, ne_eq] at h
  simp only [decodeMmio, h, if_false]

/-- An aligned write that no row names is answered and ignored (10_state R39). -/
theorem exec_unnamedWrite {a : Descriptor} (hn : namedDescriptor a = false) (h0 : a.extractLsb' 0 2 = 0)
    (hw : a.msb = true) (d : Word) (s : State) : exec (decodeMmio a d) s = .next (s.answer .ack) := by
  rw [decodeMmio_of_unnamed hn]
  simp [exec, execMmioOther, h0, hw]

/-- The write descriptors of the IV_OUT registers are aligned and no row names them. -/
theorem ivOutWrite_unnamed (k : BitVec 2) :
    namedDescriptor (indexedDescriptor 0x140 k) = false ∧ (indexedDescriptor 0x140 k).extractLsb' 0 2 = 0 ∧
      (indexedDescriptor 0x140 k).msb = true := by
  revert k; decide

/-! ## Words of a 128-bit value -/

theorem wordAt_toNat (v : Quad) (k : BitVec 2) :
    (wordAt v k).toNat = v.toNat / 2 ^ (96 - 32 * k.toNat) % 2 ^ 32 := by
  rw [wordAt, BitVec.extractLsb'_toNat, Nat.shiftRight_eq_div_pow]

/-- Words 2 and 3 lie in the low half. -/
theorem wordAt_of_low_zero {v : Quad} (h : v.extractLsb' 0 64 = 0) {k : BitVec 2} (hk : 2 ≤ k.toNat) :
    wordAt v k = 0 := by
  have e : wordAt v k = (v.extractLsb' 0 64).extractLsb' (96 - 32 * k.toNat) 32 := by
    rw [wordAt, BitVec.extractLsb'_extractLsb'_of_le (by omega)]
  rw [e, h]
  exact BitVec.extractLsb'_zero

/-! ## Reads of an idle device -/

theorem State.bumpIfBusy_of_idle {s : State} (h : s.dev.busy = false) : s.bumpIfBusy = s := by
  simp [State.bumpIfBusy, h]

theorem exec_rdBlkoff_of_idle {s : State} (h : s.dev.busy = false) :
    exec .rdBlkoff s = .next (s.answer (.data s.blkoffRead)) := by
  simp only [exec, execRdBlkoff, State.bumpIfBusy_of_idle h]

theorem exec_rdIvOut_of_idle {s : State} (h : s.dev.busy = false) (k : BitVec 2) :
    exec (.rdIvOut k) s = .next (s.answer (.data (wordAt s.dev.iv k))) := by
  simp [exec, execRdIvOut, State.bumpIfBusy_of_idle h, State.ivOutRead, h]

/-- BLKOFF[3:0] is OFF mod 16 and bits 31:4 are 0 (10_state R34). -/
theorem State.blkoffRead_toNat_of_idle {s : State} (h : s.dev.busy = false) :
    s.blkoffRead.toNat = s.dev.off.val % 16 := by
  have hlt : s.dev.off.val % 16 < 2 ^ 4 := Nat.mod_lt _ (by decide)
  rw [State.blkoffRead, if_neg (by simp [h]), BitVec.toNat_append, BitVec.toNat_ofNat, Nat.mod_eq_of_lt hlt]
  simp

/-! ## Devices changing places around an operation -/

/-- An operation on device number `k` that leaves the others alone leaves its result as that device. -/
theorem State.device?_focus_same {s u : State} {k : Nat} {d : Device} (hd : s.device? k = some d)
    (hp : u.peers = (s.focus k).peers) : (u.focus k).device? k = some u.dev := by
  cases k with
  | zero => rfl
  | succ k =>
    have hk : s.peers[k]? = some d := hd
    have hlt : k < s.peers.length := (List.getElem?_eq_some_iff.mp hk).1
    have hpk : u.peers = s.peers.set k s.dev := by simpa only [State.focus, hk] using hp
    simp [State.focus, State.device?, hpk, hlt]

/-- It leaves every other device as it was. -/
theorem State.device?_focus_other {s u : State} {k j : Nat} {d : Device} (hd : s.device? k = some d)
    (hp : u.peers = (s.focus k).peers) (hj : j ≠ k) : (u.focus k).device? j = s.device? j := by
  cases k with
  | zero =>
    obtain ⟨j, rfl⟩ := Nat.exists_eq_succ_of_ne_zero hj
    exact congrArg (·[j]?) hp
  | succ k =>
    have hk : s.peers[k]? = some d := hd
    have hlt : k < s.peers.length := (List.getElem?_eq_some_iff.mp hk).1
    have hpk : u.peers = s.peers.set k s.dev := by simpa only [State.focus, hk] using hp
    cases j with
    | zero => simp [State.focus, State.device?, hpk, hlt]
    | succ j =>
      have hjk : k ≠ j := fun e => hj (e ▸ rfl)
      simp [State.focus, State.device?, hpk, hlt, hjk]

/-! ## The reset input -/

/-- A reset changes no other device and none of the host's operations. -/
theorem State.dropWrite_frame (s : State) : s.dropWrite.peers = s.peers ∧ s.dropWrite.hostQ = s.hostQ := by
  rcases s.dropWrite_cases with e | ⟨-, e⟩ <;> simp [e]

@[simp] theorem State.resetDevice_dev (s : State) :
    s.resetDevice.dev = Device.reset s.dev.base s.dev.policy := rfl

@[simp] theorem State.resetDevice_peers (s : State) : s.resetDevice.peers = s.peers := s.dropWrite_frame.1

@[simp] theorem State.resetDevice_hostQ (s : State) : s.resetDevice.hostQ = s.hostQ := s.dropWrite_frame.2

/-- A reset of device number `k` in its place: the other devices stay, and it is as after reset. -/
theorem State.resetDevice_inPlace {s : State} {k : Nat} {d : Device} (hd : s.device? k = some d) :
    (((s.focus k).resetDevice).focus k).hostQ = s.hostQ ∧
    (∀ j, j ≠ k → (((s.focus k).resetDevice).focus k).device? j = s.device? j) ∧
    (((s.focus k).resetDevice).focus k).device? k = some (Device.reset d.base d.policy) := by
  have hp : (s.focus k).resetDevice.peers = (s.focus k).peers := State.resetDevice_peers _
  refine ⟨by simp, fun j hj => State.device?_focus_other hd hp hj, ?_⟩
  rw [State.device?_focus_same hd hp, State.resetDevice_dev, State.focus_dev hd]

/-- The step of the reset input: the device of the window is reset in its place. -/
theorem step_of_resetInput {s : State} {k : Nat} {addr : Word} {rest : List HostOp} (ht : s.turn = .host)
    (hq : s.hostQ = .resetInput addr :: rest) (hl : s.locate addr = some k) :
    step s = .next ((({ s with sched := s.sched.tail, hostQ := rest }.focus k).resetDevice).focus k) := by
  have hl' : State.locate { s with sched := s.sched.tail, hostQ := rest } addr = some k := hl
  apply step_of_done
  rw [State.fetch_of_host ht]
  simp only [fetchHost, hq, fetchReset, hl']

/-! ## The statements -/

/-- Settles O32: the read is a word of IV, and words 2 and 3 are the low half, which W8 keeps at 0. -/
theorem ivOutReads : Obligations.IvOutReads := by
  intro s k
  refine ⟨fun hidle => ⟨wordAt s.dev.iv k, exec_rdIvOut_of_idle hidle k, wordAt_toNat _ _, ?_⟩, fun d => ?_⟩
  · intro hinv hmode hk
    exact wordAt_of_low_zero (hinv.w8_low hmode) hk
  · obtain ⟨hn, h0, hw⟩ := ivOutWrite_unnamed k
    exact exec_unnamedWrite hn h0 hw d s

/-- Settles O7: the step resets the device between two changes of places. -/
theorem resetSetsEveryElement : Obligations.ResetSetsEveryElement := by
  intro s k d addr rest ht hq hl hd
  exact ⟨_, step_of_resetInput ht hq hl,
    State.resetDevice_inPlace (s := { s with sched := s.sched.tail, hostQ := rest }) hd⟩

/-- Settles O31: the read is OFF mod 16, and no row names the write. -/
theorem blkoffReads : Obligations.BlkoffReads := by
  intro s
  refine ⟨fun hidle => ⟨_, exec_rdBlkoff_of_idle hidle, State.blkoffRead_toNat_of_idle hidle⟩, fun d => ?_⟩
  exact exec_unnamedWrite (by decide) (by decide) (by decide) d s

end Sys2Proof.Machine
end

section
/-! SUPPORT. Command words (30_encoding R71 to R78): what the decoder answers for a word made of its fields,
which words are illegal, and the engine's step with its latched word; then the statements about them. -/

namespace Sys2Proof.Machine

/-! ## The decoder on a word made of its fields -/

theorem decodeCmd_initIvWord (kl il : BitVec 5) : decodeCmd (cmdWord 1 kl il) = .initIv kl il := by
  simp [decodeCmd]

theorem decodeCmd_initRandWord (kl il : BitVec 5) : decodeCmd (cmdWord 2 kl il) = .initRand kl il := by
  simp [decodeCmd]

theorem decodeCmd_setIvWord (il : BitVec 5) : decodeCmd (cmdWord 3 0 il) = .setIv il := by
  simp [decodeCmd]

theorem decodeCmd_processWord : decodeCmd (cmdWord 4 0 0) = .process := by
  simp [decodeCmd]

theorem decodeCmd_updateIvWord : decodeCmd (cmdWord 5 0 0) = .updateIv := by
  simp [decodeCmd]

/-! ## Illegal words -/

/-- RSV must be 0 (30_encoding R75). -/
theorem legalCmdWord_of_rsv {w : Word} (h : w.extractLsb' 14 18 ≠ 0) : legalCmdWord w = false := by
  rw [legalCmdWord, beq_false_of_ne h, Bool.false_and]

/-- OP must be 1 to 5 (30_encoding R76). -/
theorem legalCmdWord_of_reservedOp {w : Word}
    (h : w.extractLsb' 0 4 = 0 ∨ 6 ≤ (w.extractLsb' 0 4).toNat) : legalCmdWord w = false := by
  have hop : (w.extractLsb' 0 4).toNat = 0 ∨ 6 ≤ (w.extractLsb' 0 4).toNat :=
    h.imp_left fun e => by rw [e]; rfl
  unfold legalCmdWord
  split
  case h_6 => exact Bool.and_false _
  all_goals omega

/-- SET_IV has no key length (30_encoding R77). -/
theorem legalCmdWord_of_setIvKlen {w : Word} (hop : w.extractLsb' 0 4 = 3) (h : w.extractLsb' 4 5 ≠ 0) :
    legalCmdWord w = false := by
  simpa [legalCmdWord, hop] using fun _ => h

/-- PROCESS and UPDATE_IV have neither length (30_encoding R77). -/
theorem legalCmdWord_of_unusedLength {w : Word} (hop : w.extractLsb' 0 4 = 4 ∨ w.extractLsb' 0 4 = 5)
    (h : w.extractLsb' 4 5 ≠ 0 ∨ w.extractLsb' 9 5 ≠ 0) : legalCmdWord w = false := by
  have hlen : w.extractLsb' 4 5 = 0 → w.extractLsb' 9 5 ≠ 0 := fun e => h.resolve_left (not_not_intro e)
  rcases hop with hop | hop <;> simpa [legalCmdWord, hop] using fun _ => hlen

/-! ## The engine's step -/

/-- The step of a busy engine runs its latched command on its device (70_reset_and_hazards R204). -/
theorem step_of_busyEngine {s u : State} {k : Nat} {d : Device} (ht : s.turn = .engine k)
    (hd : s.device? k = some d) (hb : d.busy = true)
    (hu : exec (decodeCmd d.curCmd) ({ s with sched := s.sched.tail }.focus k) = .next u) :
    step s = .next (u.focus k) := by
  have hd' : State.device? { s with sched := s.sched.tail } k = some d := by cases k <;> exact hd
  refine step_of_run ?_ hu
  rw [State.fetch_of_engine ht, fetchEngine, hd']
  exact if_pos hb

theorem exec_illegalCmd (w : Word) (s : State) : exec (.illegalCmd w) s = .next (s.finish .illegalCmd) := rfl

/-- The completion of a command writes no element of the cipher state (60_exceptions R174). -/
theorem Device.finish_sameCipher (d : Device) (c : ErrCode) : d.sameCipher (d.finish c) :=
  ⟨rfl, rfl, rfl, rfl, rfl, rfl⟩

/-- The first device's step with an illegal word latched: the command completes with ILLEGAL_CMD. -/
theorem step_of_illegalWord {s : State} (ht : s.turn = .engine 0) (hb : s.dev.busy = true)
    (hw : legalCmdWord s.dev.curCmd = false) :
    step s = .next ({ s with sched := s.sched.tail }.finish .illegalCmd) := by
  apply step_of_busyEngine ht rfl hb
  rw [(decodeCmd_illegal_iff _).mpr hw]
  exact exec_illegalCmd _ _

/-! ## The statements -/

/-- Settles O6: each way to be illegal makes the decoder answer ILLEGAL_CMD, whose one step completes it. -/
theorem illegalWordFails : Obligations.IllegalWordFails := by
  intro s ht hb h
  have hw : legalCmdWord s.dev.curCmd = false := by
    rcases h with hrsv | hop | hop | ⟨hop, hkl⟩ | ⟨hop, hlen⟩
    · exact legalCmdWord_of_rsv hrsv
    · exact legalCmdWord_of_reservedOp (.inl hop)
    · exact legalCmdWord_of_reservedOp (.inr hop)
    · exact legalCmdWord_of_setIvKlen hop hkl
    · exact legalCmdWord_of_unusedLength hop hlen
  exact ⟨_, step_of_illegalWord ht hb hw, rfl, by simp, rfl, Device.finish_sameCipher _ _, rfl⟩

/-- Settles O1: each word of the table is the word of its fields. -/
theorem canonicalWordsDecode : Obligations.CanonicalWordsDecode :=
  ⟨decodeCmd_initIvWord 16 16, decodeCmd_initIvWord 16 8, decodeCmd_initRandWord 16 16,
    decodeCmd_initRandWord 16 8, decodeCmd_setIvWord 16, decodeCmd_setIvWord 8, decodeCmd_processWord,
    decodeCmd_updateIvWord, decodeCmd_initIvWord 13 16, decodeCmd_setIvWord 15⟩

end Sys2Proof.Machine
end

section
/-! SUPPORT. The initialization commands (40_init R102 to R104): each either fails its checks, and then does
nothing but complete, or completes with OK; then the statement about the failures (R101). -/

namespace Sys2Proof.Machine

/-! ## What an initialization command can do -/

/-- INIT_IV answers the code of its check, or loads KEY and IV (40_init R102). -/
theorem execInitIv_cases {s t : State} {kl il : BitVec 5} (h : exec (.initIv kl il) s = .next t) :
    (∃ c, initCheck kl il = some c ∧ t = s.finish c) ∨
      (initCheck kl il = none ∧
        t = (s.withDev ({ s.dev with key := s.dev.curKey }.loadIv il s.dev.curIv)).finish .ok) := by
  obtain rfl : s.withDev (s.dev.initIv kl il) = t := Host.Outcome.next.inj h
  unfold Device.initIv
  cases hc : initCheck kl il with
  | some c => exact .inl ⟨c, rfl, rfl⟩
  | none => exact .inr ⟨rfl, rfl⟩

/-- INIT_RAND answers the code of its check, with nothing drawn, or loads KEY and a drawn IV (40_init R103). -/
theorem execInitRand_cases {s t : State} {kl il : BitVec 5} (h : exec (.initRand kl il) s = .next t) :
    (∃ c, initCheck kl il = some c ∧ t = s.finish c) ∨
      (initCheck kl il = none ∧
        t = (s.bumpFree.withDev
          ({ s.dev with key := s.dev.curKey }.loadIv il (drawnIv s.free il))).finish .ok) := by
  change execInitRand kl il s = .next t at h
  unfold execInitRand at h
  cases hc : initCheck kl il with
  | some c => rw [hc] at h; exact .inl ⟨c, rfl, (Host.Outcome.next.inj h).symm⟩
  | none => rw [hc] at h; exact .inr ⟨rfl, (Host.Outcome.next.inj h).symm⟩

/-- SET_IV is refused before initialization, then by the IV length, or loads the IV (40_init R104). -/
theorem execSetIv_cases {s t : State} {il : BitVec 5} (h : exec (.setIv il) s = .next t) :
    (s.dev.mode = .none ∧ t = s.finish .notInitialized) ∨
      (s.dev.mode ≠ .none ∧ ivLenLegal il = false ∧ t = s.finish .invalidIvSize) ∨
      (s.dev.mode ≠ .none ∧ ivLenLegal il = true ∧
        t = (s.withDev (s.dev.loadIv il s.dev.curIv)).finish .ok) := by
  obtain rfl : s.withDev (s.dev.setIv il) = t := Host.Outcome.next.inj h
  unfold Device.setIv
  by_cases hm : s.dev.mode = .none
  · rw [if_pos hm]; exact .inl ⟨hm, rfl⟩
  · rw [if_neg hm]
    cases hl : ivLenLegal il with
    | false => exact .inr (.inl ⟨hm, rfl, rfl⟩)
    | true => exact .inr (.inr ⟨hm, rfl, rfl⟩)

/-- An initialization command does nothing but complete with a code, or completes with OK (40_init R101). -/
theorem execInitialization_cases {i : Instr} {s t : State}
    (hi : (∃ kl il, i = .initIv kl il ∨ i = .initRand kl il) ∨ ∃ il, i = .setIv il)
    (h : exec i s = .next t) : (∃ c, t = s.finish c) ∨ t.dev.err = .ok := by
  obtain ⟨kl, il, rfl | rfl⟩ | ⟨il, rfl⟩ := hi
  · obtain ⟨c, -, rfl⟩ | ⟨-, rfl⟩ := execInitIv_cases h
    · exact .inl ⟨c, rfl⟩
    · exact .inr rfl
  · obtain ⟨c, -, rfl⟩ | ⟨-, rfl⟩ := execInitRand_cases h
    · exact .inl ⟨c, rfl⟩
    · exact .inr rfl
  · obtain ⟨-, rfl⟩ | ⟨-, -, rfl⟩ | ⟨-, -, rfl⟩ := execSetIv_cases h
    · exact .inl ⟨_, rfl⟩
    · exact .inl ⟨_, rfl⟩
    · exact .inr rfl

/-! ## The statement -/

/-- Settles O39: a command that does not end with OK has only completed, which writes neither the cipher
state nor memory. -/
theorem failedInitKeepsCipher : Obligations.FailedInitKeepsCipher := by
  intro i s t hi h herr
  obtain ⟨c, rfl⟩ := (execInitialization_cases hi h).resolve_right herr
  exact ⟨Device.finish_sameCipher _ _, rfl⟩

end Sys2Proof.Machine
end

section
/-! SUPPORT. Counter blocks (41_counter R120, R121, R126, R127): a block of each mode in its parts, what
UPDATE_IV does to those parts, then the statements that blocks do not repeat. -/

namespace Sys2Proof.Machine

/-! ## The parts of a counter block -/

/-- The first block of a W16 sample is its IV (41_counter R120). -/
@[simp] theorem counterBlock_w16_zero (iv : Quad) : counterBlock .w16 iv 0 = iv := BitVec.add_zero iv

/-- The high half of a W8 block is the sample's IV (41_counter R121). -/
@[simp] theorem counterBlock_w8_high (iv n : Quad) :
    (counterBlock .w8 iv n).extractLsb' 64 64 = iv.extractLsb' 64 64 :=
  BitVec.extractLsb'_append_eq_left

theorem counterBlock_w16_inj {iv n m : Quad} : counterBlock .w16 iv n = counterBlock .w16 iv m ↔ n = m :=
  BitVec.add_right_inj iv

theorem setWidth64_inj {n m : Quad} (hn : n.toNat < 2 ^ 64) (hm : m.toNat < 2 ^ 64) :
    n.setWidth 64 = m.setWidth 64 ↔ n = m := by
  rw [← BitVec.toNat_inj, ← BitVec.toNat_inj, BitVec.toNat_setWidth, BitVec.toNat_setWidth,
    Nat.mod_eq_of_lt hn, Nat.mod_eq_of_lt hm]

theorem counterBlock_w8_inj {iv n m : Quad} (hn : n.toNat < 2 ^ 64) (hm : m.toNat < 2 ^ 64) :
    counterBlock .w8 iv n = counterBlock .w8 iv m ↔ n = m :=
  (BitVec.append_right_inj _).trans (setWidth64_inj hn hm)

/-! ## The advance to the next sample -/

/-- UPDATE_IV on an initialized device starts the next sample and completes (43_ivadvance_access R152). -/
theorem exec_updateIv_of_initialized {s : State} (h : s.dev.mode ≠ .none) :
    exec .updateIv s = .next (s.withDev
      ({ s.dev with iv := nextIv s.dev.mode s.dev.iv s.dev.blkcnt, blkcnt := 0, off := 16 }.finish .ok)) := by
  change Host.Outcome.next (s.withDev s.dev.updateIv) = _
  rw [Device.updateIv, if_neg h]

/-- In W16 the next sample's IV is the block after the last one used (41_counter R127). -/
theorem nextIv_w16_eq_counterBlock (iv blkcnt : Quad) :
    nextIv .w16 iv blkcnt = counterBlock .w16 iv blkcnt := rfl

/-- In W8 the advance adds 1 to the high half of the IV (43_ivadvance_access R151). -/
@[simp] theorem nextIv_w8_high (iv b : Quad) :
    (nextIv .w8 iv b).extractLsb' 64 64 = iv.extractLsb' 64 64 + 1 :=
  BitVec.extractLsb'_append_eq_left

theorem iterate_nextIv_w8_high (iv b : Quad) (j : Nat) :
    ((fun v => nextIv .w8 v b)^[j] iv).extractLsb' 64 64 = iv.extractLsb' 64 64 + BitVec.ofNat 64 j := by
  induction j with
  | zero => simp
  | succ j ih =>
    rw [Function.iterate_succ_apply', nextIv_w8_high, ih, BitVec.add_assoc, BitVec.ofNat_add]
    rfl

/-- Fewer than 2^64 advances apart, the high halves differ. -/
theorem iterate_nextIv_w8_high_ne (iv b : Quad) {j k : Nat} (hjk : j < k) (hk : k < 2 ^ 64) :
    ((fun v => nextIv .w8 v b)^[j] iv).extractLsb' 64 64 ≠
      ((fun v => nextIv .w8 v b)^[k] iv).extractLsb' 64 64 := by
  rw [iterate_nextIv_w8_high, iterate_nextIv_w8_high, Ne, BitVec.add_right_inj, ← BitVec.toNat_inj,
    BitVec.toNat_ofNat, BitVec.toNat_ofNat, Nat.mod_eq_of_lt (hjk.trans hk), Nat.mod_eq_of_lt hk]
  exact hjk.ne

/-! ## The statements -/

/-- Settles O42: in both modes a block determines its index. -/
theorem counterBlocksDistinct : Obligations.CounterBlocksDistinct := by
  intro iv n m hne
  exact ⟨mt counterBlock_w16_inj.mp hne, fun hn hm => mt (counterBlock_w8_inj hn hm).mp hne⟩

/-- Settles O43: in W16 the new IV is the old sample's next block; in W8 a block of each sample carries
that sample's IV in its high half. -/
theorem nextSampleContinues : Obligations.NextSampleContinues := by
  refine ⟨fun s t hm h => ?_, fun iv n m b j k hjk hk heq => iterate_nextIv_w8_high_ne iv b hjk hk ?_⟩
  · rw [exec_updateIv_of_initialized (by simp [hm])] at h
    obtain rfl := Host.Outcome.next.inj h
    simp only [State.withDev_dev, Device.finish_mode, Device.finish_iv, hm, counterBlock_w16_zero,
      nextIv_w16_eq_counterBlock]
  · simpa only [counterBlock_w8_high] using congrArg (BitVec.extractLsb' 64 64) heq

end Sys2Proof.Machine
end

section
/-! SUPPORT. The byte step that ends its command (42_process R133, R141): it completes with an error, and
only a failed write touches memory; then the statement that it commits nothing. -/

namespace Sys2Proof.Machine

/-! ## What a byte step that ends its command does -/

/-- A block entry is refused with an error (41_counter R122). -/
theorem Device.nextKeystream_error_ne_ok {d : Device} {c : ErrCode} (h : d.nextKeystream = .error c) :
    c ≠ .ok := by
  rcases d.nextKeystream_cases with ⟨-, e⟩ | ⟨-, -, e⟩ | ⟨-, -, -, e⟩ | ⟨-, -, -, e⟩ <;> rw [h] at e
  · cases e
  · cases e; simp
  · cases e; simp
  · cases e

theorem exec_process_of_due {s : State} (h : s.dev.byteDue) : exec .process s = .next s.byteStep :=
  congrArg _ (State.processStep_of_due h)

/-- A byte step that ends its command only completes it with an error (42_process R133), with memory as it
was or, after a failed write, with any byte at the destination (R141). -/
theorem State.byteStep_of_ends {s : State} (hp : s.dev.procChecked = true)
    (he : s.byteStep.dev.procChecked = false) :
    ∃ c, c ≠ .ok ∧ s.byteStep.dev = s.dev.finish c ∧
      (s.byteStep.mem = s.mem ∨ (c = .busError ∧ s.accessFails s.dev.srcAddr = false ∧
        ∃ v, s.byteStep.mem = s.mem.write s.dev.dstAddr.toNat v)) := by
  rcases s.byteStep_cases with ⟨c, hk, e⟩ | ⟨k, -, -, e⟩ | ⟨k, -, hread, -, e⟩ | ⟨k, -, -, -, e⟩ <;>
    rw [e] at he ⊢
  · exact ⟨c, Device.nextKeystream_error_ne_ok hk, rfl, .inl rfl⟩
  · exact ⟨.busError, by simp, rfl, .inl rfl⟩
  · exact ⟨.busError, by simp, rfl, .inr ⟨rfl, hread, _, rfl⟩⟩
  · rw [State.withDev_dev, Device.commitByte_procChecked, hp] at he
    cases he

/-! ## The statement -/

/-- Settles O48: the step is a completion with an error, which writes no element of the cipher state, and
the only write to memory is the failed one. -/
theorem failedByteStepCommitsNothing : Obligations.FailedByteStepCommitsNothing := by
  intro s t hdue h he
  obtain rfl := Host.Outcome.next.inj ((exec_process_of_due hdue).symm.trans h)
  obtain ⟨c, hc, hdev, hmem⟩ := State.byteStep_of_ends hdue.1 he
  rw [hdev]
  refine ⟨Device.finish_sameCipher _ _, hc, rfl, ?_⟩
  obtain hmem | ⟨rfl, hread, v, hmem⟩ := hmem <;> rw [hmem]
  · exact ⟨fun _ _ => rfl, fun _ => rfl⟩
  · refine ⟨fun a ha => Memory.read_write_other _ _ ha, fun hno => ?_⟩
    exact hno.elim (absurd rfl) (by simp [hread])

end Sys2Proof.Machine
end

section
/-! SUPPORT. The IV advance (43_ivadvance_access R150 to R153): what UPDATE_IV answers before initialization
and the next IV as a number in each mode; then the statement of its result and its test vectors (R156). -/

namespace Sys2Proof.Machine

/-! ## UPDATE_IV and the next IV -/

/-- UPDATE_IV before initialization only completes with NOT_INITIALIZED (43_ivadvance_access R153). -/
theorem exec_updateIv_of_uninitialized {s : State} (h : s.dev.mode = .none) :
    exec .updateIv s = .next (s.finish .notInitialized) := by
  change Host.Outcome.next (s.withDev s.dev.updateIv) = _
  rw [Device.updateIv, if_pos h, State.finish]

theorem nextIv_w16_toNat (iv blkcnt : Quad) :
    (nextIv .w16 iv blkcnt).toNat = (iv.toNat + blkcnt.toNat) % 2 ^ 128 :=
  BitVec.toNat_add iv blkcnt

/-- The next IV in W8 is the high half plus 1, modulo 2^64, followed by zeros (43_ivadvance_access R151). -/
theorem nextIv_w8_toNat (iv blkcnt : Quad) :
    (nextIv .w8 iv blkcnt).toNat = (iv.toNat / 2 ^ 64 + 1) % 2 ^ 64 * 2 ^ 64 := by
  rw [nextIv, BitVec.toNat_append]
  simp [Nat.shiftLeft_eq, Nat.shiftRight_eq_div_pow]

/-- In W16 UPDATE_IV leaves the sum of IV and BLKCNT (43_ivadvance_access R150). -/
theorem exec_updateIv_w16_iv {s : State} {v : Quad} (hm : s.dev.mode = .w16)
    (hv : (s.dev.iv.toNat + s.dev.blkcnt.toNat) % 2 ^ 128 = v.toNat) :
    ∃ t, exec .updateIv s = .next t ∧ t.dev.iv = v := by
  refine ⟨_, exec_updateIv_of_initialized (by simp [hm]), BitVec.eq_of_toNat_eq ?_⟩
  rw [State.withDev_dev, Device.finish_iv, hm, nextIv_w16_toNat, hv]

/-- In W8 UPDATE_IV leaves the successor of the high half, whatever BLKCNT is (43_ivadvance_access R151). -/
theorem exec_updateIv_w8_iv {s : State} {v : Quad} (hm : s.dev.mode = .w8)
    (hv : (s.dev.iv.toNat / 2 ^ 64 + 1) % 2 ^ 64 * 2 ^ 64 = v.toNat) :
    ∃ t, exec .updateIv s = .next t ∧ t.dev.iv = v := by
  refine ⟨_, exec_updateIv_of_initialized (by simp [hm]), BitVec.eq_of_toNat_eq ?_⟩
  rw [State.withDev_dev, Device.finish_iv, hm, nextIv_w8_toNat, hv]

/-! ## The statements -/

/-- Settles O40: the completion before initialization, and otherwise the next IV, read as a number in each
mode. -/
theorem updateIvResult : Obligations.UpdateIvResult := by
  intro s
  refine ⟨exec_updateIv_of_uninitialized, fun hm =>
    ⟨nextIv s.dev.mode s.dev.iv s.dev.blkcnt, exec_updateIv_of_initialized hm, fun h => ?_, fun h => ?_⟩⟩
  · rw [h, nextIv_w16_toNat]
  · rw [h, nextIv_w8_toNat]

/-- Settles O41: each vector is the arithmetic of its mode, which in W8 does not read the block count. -/
theorem ivAdvanceVectors : Obligations.IvAdvanceVectors := by
  intro s n
  exact ⟨exec_updateIv_w16_iv rfl (by simp), exec_updateIv_w16_iv rfl (by simp),
    exec_updateIv_w16_iv rfl (by simp), exec_updateIv_w8_iv rfl (by simp),
    exec_updateIv_w8_iv rfl (by simp), exec_updateIv_w8_iv rfl (by simp)⟩

end Sys2Proof.Machine
end

section
/-! SUPPORT. The host's writes of the window beside a command in progress (70_reset_and_hazards R205, R206):
each is an acknowledged change of one register of the device; then the statements about them. -/

namespace Sys2Proof.Machine

/-! ## What a write of the window does -/

/-- An acknowledged write changes the device and the bus response, and no other part of the machine. -/
theorem State.ackWith_eq (s : State) (d : Device) : s.ackWith d = { s with dev := d, resp := .ack } := rfl

theorem exec_wrSrc (d : Word) (s : State) :
    exec (.wrSrc d) s = .next (s.ackWith { s.dev with src := d }) := rfl

theorem exec_wrDst (d : Word) (s : State) :
    exec (.wrDst d) s = .next (s.ackWith { s.dev with dst := d }) := rfl

theorem exec_wrLen (d : Word) (s : State) :
    exec (.wrLen d) s = .next (s.ackWith { s.dev with len := d }) := rfl

theorem exec_wrKeyIn (k : BitVec 2) (d : Word) (s : State) :
    exec (.wrKeyIn k d) s = .next (s.ackWith { s.dev with keyIn := s.dev.keyIn.set k d }) := rfl

theorem exec_wrIvIn (k : BitVec 2) (d : Word) (s : State) :
    exec (.wrIvIn k d) s = .next (s.ackWith { s.dev with ivIn := s.dev.ivIn.set k d }) := rfl

/-- A CMD write to a busy device is not accepted: it only sets OVR (70_reset_and_hazards R205). -/
theorem exec_wrCmd_of_busy {s : State} (h : s.dev.busy = true) (w : Word) :
    exec (.wrCmd w) s = .next (s.ackWith { s.dev with ovr := true }) :=
  if_pos h

/-! ## The statements -/

/-- Settles O24: on a busy device the CMD write takes the branch that sets OVR, and its acknowledgement leaves
the rest of the machine. -/
theorem cmdWriteDropped : Obligations.CmdWriteDropped := by
  intro s w h
  rw [exec_wrCmd_of_busy h, State.ackWith_eq]

/-- Settles O25: no staging write looks at BUSY, and each is the acknowledged store in its own register. -/
theorem stagingWritesStore : Obligations.StagingWritesStore := by
  intro s k d
  simp only [exec_wrSrc, exec_wrDst, exec_wrLen, exec_wrKeyIn, exec_wrIvIn, State.ackWith_eq, and_self]

end Sys2Proof.Machine
end

section
/-! SUPPORT. The two directions of the encoding (30_encoding R71, R72, R82): what the decoders answer for the
words of each row, and all that the command decoder can answer; then the statements that the directions agree. -/

namespace Sys2Proof.Machine

/-! ## The access decoder on the descriptors of its rows -/

/-- The ten descriptors with the full mask. -/
theorem decodeMmio_exact (d : Word) :
    decodeMmio 0x100 d = .wrCmd d ∧ decodeMmio 0x004 d = .rdStatus ∧ decodeMmio 0x104 d = .wrStatus d ∧
    decodeMmio 0x008 d = .rdBlkoff ∧ decodeMmio 0x110 d = .wrSrc d ∧ decodeMmio 0x114 d = .wrDst d ∧
    decodeMmio 0x118 d = .wrLen d ∧ decodeMmio 0x010 d = .rdSrc ∧ decodeMmio 0x014 d = .rdDst ∧
    decodeMmio 0x018 d = .rdLen :=
  ⟨rfl, rfl, rfl, rfl, rfl, rfl, rfl, rfl, rfl, rfl⟩

/-- The four indexed rows, at every index. -/
theorem decodeMmio_indexed (k : BitVec 2) (d : Word) :
    decodeMmio (indexedDescriptor 0x040 k) d = .rdIvOut k ∧
    decodeMmio (indexedDescriptor 0x120 k) d = .wrKeyIn k d ∧
    decodeMmio (indexedDescriptor 0x130 k) d = .wrIvIn k d ∧
    decodeMmio (indexedDescriptor 0x030 k) d = .rdIvIn k := by
  rcases index_cases k with rfl | rfl | rfl | rfl <;> exact ⟨rfl, rfl, rfl, rfl⟩

/-- An indexed descriptor is its fixed bits around the index. -/
theorem indexedDescriptor_eq_append (k : BitVec 2) :
    0b00100#5 ++ k ++ 0b00#2 = indexedDescriptor 0x040 k ∧
    0b10010#5 ++ k ++ 0b00#2 = indexedDescriptor 0x120 k ∧
    0b10011#5 ++ k ++ 0b00#2 = indexedDescriptor 0x130 k ∧
    0b00011#5 ++ k ++ 0b00#2 = indexedDescriptor 0x030 k := by
  revert k; decide

/-- Of the indexed rows, IV_OUT and the read of IV_IN have W = 0, and the two writes W = 1. -/
theorem indexedDescriptor_msb (k : BitVec 2) :
    (indexedDescriptor 0x040 k).msb = false ∧ (indexedDescriptor 0x120 k).msb = true ∧
    (indexedDescriptor 0x130 k).msb = true ∧ (indexedDescriptor 0x030 k).msb = false := by
  revert k; decide

/-! ## Data words -/

/-- A read carries the data 0 (30_encoding R70). -/
theorem readDataZero_of_read {a : Descriptor} {d : Word} (ha : a.msb = false)
    (h : readDataZero a d = true) : d = 0 := by
  simpa [readDataZero, ha] using h

/-- The data that the fallback row keeps is well formed. -/
theorem readDataZero_ite (a : Descriptor) (d : Word) : readDataZero a (if a.msb then d else 0) = true := by
  cases h : a.msb <;> simp [readDataZero, h]

/-- On a well-formed access it is all of the data. -/
theorem ite_eq_of_readDataZero {a : Descriptor} {d : Word} (h : readDataZero a d = true) :
    (if a.msb then d else 0) = d := by
  cases ha : a.msb with
  | true => rfl
  | false => exact (readDataZero_of_read ha h).symm

/-! ## All that the command decoder can answer -/

/-- The command decoder answers the command of the word's fields, or the fallback, which keeps an illegal
word (30_encoding R78). -/
theorem decodeCmd_cases (w : Word) :
    (∃ kl il, w = cmdWord 1 kl il ∧ decodeCmd w = .initIv kl il) ∨
    (∃ kl il, w = cmdWord 2 kl il ∧ decodeCmd w = .initRand kl il) ∨
    (∃ il, w = cmdWord 3 0 il ∧ decodeCmd w = .setIv il) ∨
    (w = cmdWord 4 0 0 ∧ decodeCmd w = .process) ∨
    (w = cmdWord 5 0 0 ∧ decodeCmd w = .updateIv) ∨
    (legalCmdWord w = false ∧ decodeCmd w = .illegalCmd w) := by
  by_cases hw : decodeCmd w = .illegalCmd w
  · exact .inr (.inr (.inr (.inr (.inr ⟨(decodeCmd_illegal_iff w).mp hw, hw⟩))))
  have hrsv : cmdRsv w = 0 := by
    by_contra h
    exact hw (if_pos h)
  obtain ⟨op, kl, il, rfl⟩ : ∃ op kl il, w = cmdWord op kl il := ⟨_, _, _, (cmdWord_of_fields hrsv).symm⟩
  by_cases h1 : op = 1
  · exact .inl ⟨kl, il, by rw [h1], by rw [h1, decodeCmd_initIvWord]⟩
  right
  by_cases h2 : op = 2
  · exact .inl ⟨kl, il, by rw [h2], by rw [h2, decodeCmd_initRandWord]⟩
  right
  by_cases h3 : op = 3
  · have hkl : kl = 0 := by
      by_contra h
      exact hw (by simpa [decodeCmd, h3] using h)
    exact .inl ⟨il, by rw [h3, hkl], by rw [h3, hkl, decodeCmd_setIvWord]⟩
  right
  by_cases h4 : op = 4
  · have hlen : kl = 0 ∧ il = 0 := by
      by_contra h
      exact hw (by simpa [decodeCmd, h4] using h)
    exact .inl (by rw [h4, hlen.1, hlen.2]; exact ⟨rfl, decodeCmd_processWord⟩)
  right
  by_cases h5 : op = 5
  · have hlen : kl = 0 ∧ il = 0 := by
      by_contra h
      exact hw (by simpa [decodeCmd, h5] using h)
    exact .inl (by rw [h5, hlen.1, hlen.2]; exact ⟨rfl, decodeCmd_updateIvWord⟩)
  · refine absurd ?_ hw
    simp only [decodeCmd, cmdRsv_cmdWord, cmdOp_cmdWord, h1, h2, h3, h4, h5, ne_eq, not_true, if_false]

/-! ## Back to the words -/

theorem encode_decodeCmd (w : Word) : encode (decodeCmd w) = .cmd w := by
  rcases decodeCmd_cases w with ⟨_, _, hw, h⟩ | ⟨_, _, hw, h⟩ | ⟨_, hw, h⟩ | ⟨hw, h⟩ | ⟨hw, h⟩ | ⟨-, h⟩
  case inr.inr.inr.inr.inr => rw [h]; rfl
  all_goals rw [h, hw]; rfl

/-- The descriptor comes back with the data that its row keeps: a write's, and 0 for a read. -/
theorem encode_decodeMmio (a : Descriptor) (d : Word) :
    encode (decodeMmio a d) = .mmio a (if a.msb then d else 0) := by
  rcases decodeMmio_cases a d with ⟨rfl, h⟩ | ⟨rfl, h⟩ | ⟨rfl, h⟩ | ⟨rfl, h⟩ | ⟨k, rfl, h⟩ | ⟨rfl, h⟩ |
    ⟨rfl, h⟩ | ⟨rfl, h⟩ | ⟨rfl, h⟩ | ⟨rfl, h⟩ | ⟨rfl, h⟩ | ⟨k, rfl, h⟩ | ⟨k, rfl, h⟩ | ⟨k, rfl, h⟩ | ⟨-, h⟩
  all_goals rw [h]
  iterate 4 · rfl
  · rw [(indexedDescriptor_msb k).1]; rfl
  iterate 6 · rfl
  · rw [(indexedDescriptor_msb k).2.1]; rfl
  · rw [(indexedDescriptor_msb k).2.2.1]; rfl
  · rw [(indexedDescriptor_msb k).2.2.2]; rfl
  · rfl

/-! ## The statements -/

/-- Settles O3: each row's words meet the decoder's clause for that row, and the two fallbacks are reached
exactly by the words that well-formedness leaves them. -/
theorem decodeEncodeRoundTrip : Obligations.DecodeEncodeRoundTrip := by
  intro i hi
  have command : ∀ {w j}, decodeCmd w = j → decode (.cmd w) = j := fun h => h
  have access : ∀ {a d j}, decodeMmio a d = j → decode (.mmio a d) = j := fun h => h
  cases i with
  | initIv kl il => exact command (decodeCmd_initIvWord kl il)
  | initRand kl il => exact command (decodeCmd_initRandWord kl il)
  | setIv il => exact command (decodeCmd_setIvWord il)
  | process => exact command decodeCmd_processWord
  | encrypt => exact command decodeCmd_processWord
  | decrypt => exact command decodeCmd_processWord
  | updateIv => exact command decodeCmd_updateIvWord
  | illegalCmd w => exact command ((decodeCmd_illegal_iff w).mpr (by simpa [Instr.WellFormed] using hi))
  | rdIvOut k => exact access (decodeMmio_indexed k 0).1
  | wrKeyIn k d => exact access (decodeMmio_indexed k d).2.1
  | wrIvIn k d => exact access (decodeMmio_indexed k d).2.2.1
  | rdIvIn k => exact access (decodeMmio_indexed k 0).2.2.2
  | mmioOther a d =>
    have hwf : namedDescriptor a = false ∧ readDataZero a d = true := by simpa [Instr.WellFormed] using hi
    refine access ((decodeMmio_of_unnamed hwf.1 d).trans ?_)
    rw [ite_eq_of_readDataZero hwf.2]
    rfl
  | _ => rfl

/-- Settles O4: a command word is that of its fields or illegal, and a descriptor is its row's, a read's
carrying no data. -/
theorem encodeDecodeRoundTrip : Obligations.EncodeDecodeRoundTrip := by
  intro e he
  cases e with
  | cmd w => exact encode_decodeCmd w
  | mmio a d =>
    refine (encode_decodeMmio a d).trans ?_
    rw [ite_eq_of_readDataZero he]

/-- Settles O5: each answer of the decoders but the fallbacks is well formed as it stands, and a fallback's
words are those that no row names. -/
theorem decodedIsWellFormed : Obligations.DecodedIsWellFormed := by
  intro e
  cases e with
  | cmd w =>
    change (decodeCmd w).WellFormed = true
    rcases decodeCmd_cases w with ⟨_, _, -, h⟩ | ⟨_, _, -, h⟩ | ⟨_, -, h⟩ | ⟨-, h⟩ | ⟨-, h⟩ | ⟨hw, h⟩
    case inr.inr.inr.inr.inr => rw [h, Instr.WellFormed, hw]; rfl
    all_goals rw [h]; rfl
  | mmio a d =>
    change (decodeMmio a d).WellFormed = true
    rcases decodeMmio_cases a d with ⟨-, h⟩ | ⟨-, h⟩ | ⟨-, h⟩ | ⟨-, h⟩ | ⟨_, -, h⟩ | ⟨-, h⟩ | ⟨-, h⟩ | ⟨-, h⟩ |
      ⟨-, h⟩ | ⟨-, h⟩ | ⟨-, h⟩ | ⟨_, -, h⟩ | ⟨_, -, h⟩ | ⟨_, -, h⟩ | ⟨hn, h⟩ <;> rw [h, Instr.WellFormed]
    rw [hn, readDataZero_ite]
    rfl

/-- Settles O2: the indexed descriptors are the masked rows at their indices. -/
theorem descriptorsDecode : Obligations.DescriptorsDecode := by
  intro d k
  obtain ⟨e0, e1, e2, e3⟩ := indexedDescriptor_eq_append k
  rw [e0, e1, e2, e3]
  obtain ⟨h1, h2, h3, h4, h5, h6, h7, h8, h9, h10⟩ := decodeMmio_exact d
  exact ⟨h1, h2, h3, h4, h5, h6, h7, h8, h9, h10, decodeMmio_indexed k d⟩

end Sys2Proof.Machine
end

section
/-! SUPPORT. What any instruction can make of the device it acts on, said once (10_state sections 1 to 3): the
device it leaves is one of the changes below, the other devices stay, and only PROCESS writes memory, at its
destination byte. Then the statement of which instructions write which elements. -/

namespace Sys2Proof.Machine

/-! ## The changes of a device -/

/-- The instruction is a read of the window, or an access that no row names (30_encoding R82). -/
inductive LeavesBlocks : Instr → Prop
  | rdStatus : LeavesBlocks .rdStatus
  | rdBlkoff : LeavesBlocks .rdBlkoff
  | rdIvOut (k : BitVec 2) : LeavesBlocks (.rdIvOut k)
  | rdSrc : LeavesBlocks .rdSrc
  | rdDst : LeavesBlocks .rdDst
  | rdLen : LeavesBlocks .rdLen
  | rdIvIn (k : BitVec 2) : LeavesBlocks (.rdIvIn k)
  | other (a : Descriptor) (d : Word) : LeavesBlocks (.mmioOther a d)

/-- What the instruction `i` can make of the device `d`: nothing; one of the window's writes; a completion; an
initialization or an advance that succeeds; or one of the two steps of PROCESS that do not complete it. -/
inductive Device.Change (i : Instr) (d : Device) : Device → Prop
  | same : LeavesBlocks i → Change i d d
  | overrun (w : Word) : i = .wrCmd w → d.busy = true → Change i d { d with ovr := true }
  | accept (w : Word) : i = .wrCmd w → d.busy = false → Change i d (d.accept w)
  | writeStatus (w : Word) : i = .wrStatus w → Change i d (d.writeStatus w)
  | writeSrc (v : Word) : i = .wrSrc v → Change i d { d with src := v }
  | writeDst (v : Word) : i = .wrDst v → Change i d { d with dst := v }
  | writeLen (v : Word) : i = .wrLen v → Change i d { d with len := v }
  | writeKeyIn (k : BitVec 2) (v : Word) : i = .wrKeyIn k v → Change i d { d with keyIn := d.keyIn.set k v }
  | writeIvIn (k : BitVec 2) (v : Word) : i = .wrIvIn k v → Change i d { d with ivIn := d.ivIn.set k v }
  | complete (c : ErrCode) : i.isCommand → Change i d (d.finish c)
  | loadKey (il : BitVec 5) (v : Quad) : i = .initIv 16 il ∨ i = .initRand 16 il →
      Change i d (({ d with key := d.curKey }.loadIv il v).finish .ok)
  | loadIv (il : BitVec 5) (v : Quad) : i = .setIv il → Change i d ((d.loadIv il v).finish .ok)
  | advance : i = .updateIv → d.mode ≠ .none →
      Change i d ({ d with iv := nextIv d.mode d.iv d.blkcnt, blkcnt := 0, off := 16 }.finish .ok)
  | issue : i.isProcess → d.procChecked = false → d.mode ≠ .none → d.rangeWraps = false →
      Change i d { d with curI := 0, procChecked := true }
  | commit (k : Keystream) : i.isProcess → d.procChecked = true → d.curI.toNat < d.curLen.toNat →
      d.nextKeystream = .ok k → Change i d (d.commitByte k)

/-- What an instruction can do to the machine beside its bookkeeping. -/
structure Effect (i : Instr) (s t : State) : Prop where
  dev : Device.Change i s.dev t.dev
  peers : t.peers = s.peers
  mem : t.mem = s.mem ∨ (i.isProcess ∧ ∃ v, t.mem = s.mem.write s.dev.dstAddr.toNat v)
  sched : t.sched = s.sched

/-- An instruction that leaves the memory and the other devices alone. -/
theorem Effect.of_change {i : Instr} {s t : State} (hd : Device.Change i s.dev t.dev) (hp : t.peers = s.peers)
    (hm : t.mem = s.mem) (hs : t.sched = s.sched) : Effect i s t := ⟨hd, hp, .inl hm, hs⟩

/-- An instruction that completes its command and does nothing else. -/
theorem Effect.of_finish {i : Instr} (hi : i.isCommand) (s : State) (c : ErrCode) : Effect i s (s.finish c) :=
  .of_change (.complete c hi) rfl rfl rfl

/-! ## Reads -/

/-- No device and no byte of memory differs. -/
structure State.SameBlocks (s t : State) : Prop where
  dev : t.dev = s.dev
  peers : t.peers = s.peers
  mem : t.mem = s.mem

theorem exec_mmioOther_of_misaligned {a : Descriptor} (h : a.extractLsb' 0 2 ≠ 0) (d : Word) {s : State} :
    exec (.mmioOther a d) s = .next s.hostBusError :=
  if_pos h

/-- An aligned read of no row returns 0 (10_state R39). -/
theorem exec_mmioOther_of_read {a : Descriptor} (h0 : a.extractLsb' 0 2 = 0) (hw : a.msb = false) (d : Word)
    {s : State} : exec (.mmioOther a d) s = .next (s.answer (.data 0)) := by
  simp [exec, execMmioOther, h0, hw]

/-- An aligned write of no row is ignored (10_state R39). -/
theorem exec_mmioOther_of_write {a : Descriptor} (h0 : a.extractLsb' 0 2 = 0) (hw : a.msb = true) (d : Word)
    {s : State} : exec (.mmioOther a d) s = .next (s.answer .ack) := by
  simp [exec, execMmioOther, h0, hw]

theorem State.bumpIfBusy_sameBlocks (s : State) : s.SameBlocks s.bumpIfBusy := by
  unfold State.bumpIfBusy
  split <;> exact ⟨rfl, rfl, rfl⟩

theorem State.bumpIfBusy_sched (s : State) : s.bumpIfBusy.sched = s.sched := by
  unfold State.bumpIfBusy
  split <;> rfl

theorem State.SameBlocks.answer {s t : State} (h : s.SameBlocks t) (r : Resp) : s.SameBlocks (t.answer r) :=
  ⟨h.dev, h.peers, h.mem⟩

theorem exec_rdStatus_of_idle {s : State} (h : s.dev.busy = false) :
    exec .rdStatus s = .next (s.closeWindows.answer (.data s.statusRead)) :=
  if_neg (by simp [h])

theorem exec_rdStatus_of_busy {s : State} (h : s.dev.busy = true) :
    exec .rdStatus s = .next (s.bumpFree.answer (.data s.statusRead)) :=
  if_pos h

/-- A read, or an access of no row, is answered with the devices, the memory and the schedule as they were
(20_memory R53, 10_state R39). -/
theorem exec_leavesBlocks {i : Instr} {s t : State} (hi : LeavesBlocks i) (h : exec i s = .next t) :
    s.SameBlocks t ∧ t.sched = s.sched := by
  have answered : ∀ {u}, exec i s = .next u → t = u := fun e => Host.Outcome.next.inj (h.symm.trans e)
  have here : s.SameBlocks s := ⟨rfl, rfl, rfl⟩
  cases hi with
  | rdStatus =>
    cases hb : s.dev.busy with
    | true => rw [answered (exec_rdStatus_of_busy hb)]; exact ⟨⟨rfl, rfl, rfl⟩, rfl⟩
    | false => rw [answered (exec_rdStatus_of_idle hb)]; exact ⟨⟨rfl, rfl, rfl⟩, rfl⟩
  | rdBlkoff => rw [answered rfl]; exact ⟨s.bumpIfBusy_sameBlocks.answer _, s.bumpIfBusy_sched⟩
  | rdIvOut k => rw [answered rfl]; exact ⟨s.bumpIfBusy_sameBlocks.answer _, s.bumpIfBusy_sched⟩
  | rdSrc => rw [answered rfl]; exact ⟨here.answer _, rfl⟩
  | rdDst => rw [answered rfl]; exact ⟨here.answer _, rfl⟩
  | rdLen => rw [answered rfl]; exact ⟨here.answer _, rfl⟩
  | rdIvIn k => rw [answered rfl]; exact ⟨here.answer _, rfl⟩
  | other a d =>
    by_cases h0 : a.extractLsb' 0 2 = 0
    · cases hw : a.msb with
      | true => rw [answered (exec_mmioOther_of_write h0 hw d)]; exact ⟨here.answer _, rfl⟩
      | false => rw [answered (exec_mmioOther_of_read h0 hw d)]; exact ⟨here.answer _, rfl⟩
    · rw [answered (exec_mmioOther_of_misaligned h0 d)]; exact ⟨⟨rfl, rfl, rfl⟩, rfl⟩

theorem Effect.of_leavesBlocks {i : Instr} {s t : State} (hi : LeavesBlocks i) (h : exec i s = .next t) :
    Effect i s t := by
  obtain ⟨hs, hsched⟩ := exec_leavesBlocks hi h
  exact .of_change (by rw [hs.dev]; exact .same hi) hs.peers hs.mem hsched

/-! ## The steps of PROCESS -/

theorem isCommand_of_isProcess {i : Instr} (h : i.isProcess) : i.isCommand := .inr (.inl h)

/-- The issue step: a failed check completes, and success starts the bytes (42_process R131). -/
theorem Device.processIssue_cases (d : Device) :
    (d.mode = .none ∧ d.processIssue = d.finish .notInitialized) ∨
    (d.mode ≠ .none ∧ d.rangeWraps = true ∧ d.processIssue = d.finish .addrRange) ∨
    (d.mode ≠ .none ∧ d.rangeWraps = false ∧ d.processIssue = { d with curI := 0, procChecked := true }) := by
  unfold Device.processIssue
  by_cases hm : d.mode = .none
  · simp [hm]
  · cases hr : d.rangeWraps <;> simp [hm]

/-- The engine's store writes its byte, or leaves the memory where the host's write is final. -/
theorem State.engineStore_mem_cases (s : State) (a : Word) (v : Byte) :
    (s.engineStore a v).mem = s.mem ∨ (s.engineStore a v).mem = s.mem.write a.toNat v := by
  unfold State.engineStore
  split
  · exact .inr rfl
  · split
    · exact .inl rfl
    · exact .inr rfl

theorem State.byteStep_effect {i : Instr} (hi : i.isProcess) {s : State} (hp : s.dev.procChecked = true)
    (hlt : s.dev.curI.toNat < s.dev.curLen.toNat) : Effect i s s.byteStep := by
  have hc := isCommand_of_isProcess hi
  rcases s.byteStep_cases with ⟨c, -, e⟩ | ⟨k, -, -, e⟩ | ⟨k, -, -, -, e⟩ | ⟨k, hk, -, -, e⟩ <;> rw [e]
  · exact .of_finish hc s c
  · exact .of_change (.complete _ hc) rfl rfl rfl
  · exact ⟨.complete _ hc, rfl, .inr ⟨hi, _, rfl⟩, rfl⟩
  · obtain ⟨-, hpeers, -, -, -, hsched, -⟩ := State.engineStore_frame s.takeAnswer.takeAnswer s.dev.dstAddr
      (s.engineByte s.dev.srcAddr ^^^ k.byte)
    exact ⟨.commit k hi hp hlt hk, hpeers, (State.engineStore_mem_cases ..).imp_right fun h => ⟨hi, _, h⟩,
      hsched⟩

theorem State.processStep_effect {i : Instr} (hi : i.isProcess) (s : State) : Effect i s s.processStep := by
  have hc := isCommand_of_isProcess hi
  rcases s.processStep_cases with ⟨hp, e⟩ | ⟨hp, hlt, e⟩ | ⟨-, -, e⟩ <;> rw [e]
  · rcases s.dev.processIssue_cases with ⟨-, e⟩ | ⟨-, -, e⟩ | ⟨hm, hr, e⟩ <;> rw [e]
    · exact .of_finish hc s _
    · exact .of_finish hc s _
    · exact .of_change (.issue hi hp hm hr) rfl rfl rfl
  · exact State.byteStep_effect hi hp hlt
  · exact .of_finish hc s _

/-! ## Every instruction -/

theorem keyLen_eq_of_initCheck {kl il : BitVec 5} (h : initCheck kl il = none) : kl = 16 :=
  BitVec.eq_of_toNat_eq ((initCheck_none_iff kl il).mp h).1

theorem exec_wrCmd_of_idle {s : State} (h : s.dev.busy = false) (w : Word) :
    exec (.wrCmd w) s = .next ((s.accept w).answer .ack) :=
  if_neg (by simp [h])

/-- Every instruction has an effect of its kind. -/
theorem exec_effect {i : Instr} {s t : State} (h : exec i s = .next t) : Effect i s t := by
  have answered : ∀ {u}, exec i s = .next u → t = u := fun e => Host.Outcome.next.inj (h.symm.trans e)
  cases i with
  | initIv kl il =>
    have hc : (Instr.initIv kl il).isCommand := .inl (.inl ⟨_, _, rfl⟩)
    rcases execInitIv_cases h with ⟨c, -, rfl⟩ | ⟨hn, rfl⟩
    · exact .of_finish hc s c
    · exact .of_change (.loadKey il _ (.inl (by rw [keyLen_eq_of_initCheck hn]))) rfl rfl rfl
  | initRand kl il =>
    have hc : (Instr.initRand kl il).isCommand := .inl (.inr (.inl ⟨_, _, rfl⟩))
    rcases execInitRand_cases h with ⟨c, -, rfl⟩ | ⟨hn, rfl⟩
    · exact .of_finish hc s c
    · exact .of_change (.loadKey il _ (.inr (by rw [keyLen_eq_of_initCheck hn]))) rfl rfl rfl
  | setIv il =>
    have hc : (Instr.setIv il).isCommand := .inl (.inr (.inr ⟨_, rfl⟩))
    rcases execSetIv_cases h with ⟨-, rfl⟩ | ⟨-, -, rfl⟩ | ⟨-, -, rfl⟩
    · exact .of_finish hc s _
    · exact .of_finish hc s _
    · exact .of_change (.loadIv il _ rfl) rfl rfl rfl
  | process => rw [answered rfl]; exact State.processStep_effect (.inl rfl) s
  | encrypt => rw [answered rfl]; exact State.processStep_effect (.inr (.inl rfl)) s
  | decrypt => rw [answered rfl]; exact State.processStep_effect (.inr (.inr rfl)) s
  | updateIv =>
    by_cases hm : s.dev.mode = .none
    · rw [answered (exec_updateIv_of_uninitialized hm)]
      exact .of_finish (.inr (.inr (.inl rfl))) s _
    · rw [answered (exec_updateIv_of_initialized hm)]
      exact .of_change (.advance rfl hm) rfl rfl rfl
  | illegalCmd w => rw [answered (exec_illegalCmd w s)]; exact .of_finish (.inr (.inr (.inr ⟨w, rfl⟩))) s _
  | wrCmd w =>
    cases hb : s.dev.busy with
    | true => rw [answered (exec_wrCmd_of_busy hb w)]; exact .of_change (.overrun w rfl hb) rfl rfl rfl
    | false => rw [answered (exec_wrCmd_of_idle hb w)]; exact .of_change (.accept w rfl hb) rfl rfl rfl
  | wrStatus w => rw [answered rfl]; exact .of_change (.writeStatus w rfl) rfl rfl rfl
  | wrSrc v => rw [answered rfl]; exact .of_change (.writeSrc v rfl) rfl rfl rfl
  | wrDst v => rw [answered rfl]; exact .of_change (.writeDst v rfl) rfl rfl rfl
  | wrLen v => rw [answered rfl]; exact .of_change (.writeLen v rfl) rfl rfl rfl
  | wrKeyIn k v => rw [answered rfl]; exact .of_change (.writeKeyIn k v rfl) rfl rfl rfl
  | wrIvIn k v => rw [answered rfl]; exact .of_change (.writeIvIn k v rfl) rfl rfl rfl
  | rdStatus => exact .of_leavesBlocks .rdStatus h
  | rdBlkoff => exact .of_leavesBlocks .rdBlkoff h
  | rdIvOut k => exact .of_leavesBlocks (.rdIvOut k) h
  | rdSrc => exact .of_leavesBlocks .rdSrc h
  | rdDst => exact .of_leavesBlocks .rdDst h
  | rdLen => exact .of_leavesBlocks .rdLen h
  | rdIvIn k => exact .of_leavesBlocks (.rdIvIn k) h
  | mmioOther a d => exact .of_leavesBlocks (.other a d) h

/-- The keystream of the next byte is the cached block, or a fresh one at OFF = 16 (42_process R132). -/
theorem Device.nextKeystream_ok {d : Device} {k : Keystream} (h : d.nextKeystream = .ok k) :
    (d.off ≠ 16 ∧ k = ⟨d.ks, d.blkcnt, d.off⟩) ∨
    (d.off = 16 ∧ d.mode ≠ .none ∧
      k = ⟨Config.blockEncrypt d.key (counterBlock d.mode d.iv d.blkcnt), d.blkcnt + 1, 0⟩) := by
  rcases d.nextKeystream_cases with ⟨h0, e⟩ | ⟨-, -, e⟩ | ⟨-, -, -, e⟩ | ⟨h0, hm, -, e⟩ <;> rw [h] at e
  · exact .inl ⟨h0, Except.ok.inj e⟩
  · cases e
  · cases e
  · exact .inr ⟨h0, hm, Except.ok.inj e⟩

/-! ## The statements -/

/-- Settles O15: each change of a device is made by an instruction that the statement names for the elements
it writes. -/
theorem stateWriters : Obligations.StateWriters := by
  intro i s t h
  have hd := (exec_effect h).dev
  generalize t.dev = e at hd ⊢
  cases hd with
  | same hi => simp
  | overrun w hi hb => simp [hi, hb]
  | accept w hi hb => simp [hi, hb]
  | writeStatus w hi => simp +contextual [hi]
  | writeSrc v hi => simp [hi]
  | writeDst v hi => simp [hi]
  | writeLen v hi => simp [hi]
  | writeKeyIn k v hi => simp [hi]
  | writeIvIn k v hi => simp [hi]
  | complete c hi => simp +contextual [hi]
  | loadKey il v hi =>
    have hinit : i.isInit := hi.elim (fun e => .inl ⟨_, _, e⟩) (fun e => .inr (.inl ⟨_, _, e⟩))
    have hkey : ∃ il, i = .initIv 16#5 il ∨ i = .initRand 16#5 il := ⟨il, hi⟩
    simp [hinit, hkey, Instr.isCommand]
  | loadIv il v hi =>
    have hinit : i.isInit := .inr (.inr ⟨_, hi⟩)
    simp [hinit, Instr.isCommand]
  | advance hi hm => simp [hi, Instr.isCommand]
  | issue hi hp hm hr => simp [hi]
  | commit k hi hp hlt hk =>
    rcases Device.nextKeystream_ok hk with ⟨-, rfl⟩ | ⟨h16, -, rfl⟩
    · simp [hi]
    · simp [hi, h16]

end Sys2Proof.Machine
end

section
/-! SUPPORT. What a step can do, by what it fetches, and the property of devices that every change keeps: it holds
after every step. -/

namespace Sys2Proof.Machine

/-! ## What a step fetches -/

/-- What the next step of `s` can be: a busy engine's latched command; a decoded window access, of which a WAIT is
one (30_encoding R84); a reset; a host write to memory; or a step that leaves every block as it was. Each starts
from a state in which only the host's side of `s` has moved on. -/
inductive State.Fetches (s : State) : Fetch → Prop
  | command (k : Nat) (w : Word) (s1 : State) : s.SameBlocks s1 → (s1.focus k).dev.busy = true →
      Fetches s (.run k (decodeCmd w) (s1.focus k))
  | access (k : Nat) (a : Descriptor) (d : Word) (s1 : State) : s.SameBlocks s1 →
      Fetches s (.run k (decodeMmio a d) (s1.focus k))
  | reset (k : Nat) (s1 : State) : s.SameBlocks s1 → Fetches s (.done ((s1.focus k).resetDevice.focus k))
  | hostWrite (a : Word) (v : Byte) (s1 : State) : s.SameBlocks s1 → Fetches s (.done (s1.hostWrite a v))
  | idle (t : State) : s.SameBlocks t → Fetches s (.done t)

section
variable {s s0 : State}

theorem fetchEngine_fetches (h : s.SameBlocks s0) (k : Nat) : s.Fetches (fetchEngine s0 k) := by
  rcases fetchEngine_cases s0 k with ⟨d, hd, hb, e⟩ | e <;> rw [e]
  · exact .command k _ s0 h (by rw [State.focus_dev hd, hb])
  · exact .idle s0 h

theorem fetchAccess_fetches (h : s.SameBlocks s0) (wr : Bool) (size : AccessSize) (addr data : Word) :
    s.Fetches (fetchAccess s0 wr size addr data) := by
  unfold fetchAccess
  split
  · exact .idle _ (h.answer _)
  · split
    · exact .idle _ ⟨h.dev, h.peers, h.mem⟩
    · exact .access _ _ _ s0 h

theorem fetchWait_fetches (h : s.SameBlocks s0) (base : Word) (rest : List HostOp) :
    s.Fetches (fetchWait s0 base rest) := by
  have h' : s.SameBlocks { s0 with hostQ := rest } := ⟨h.dev, h.peers, h.mem⟩
  unfold fetchWait
  split
  · exact .idle _ (h'.answer _)
  · split
    · exact .access _ 0x004 0 s0 h
    · exact .access _ 0x004 0 _ h'

theorem fetchReset_fetches (h : s.SameBlocks s0) (base : Word) : s.Fetches (fetchReset s0 base) := by
  unfold fetchReset
  split
  · exact .idle s0 h
  · exact .reset _ s0 h

theorem fetchHost_fetches (h : s.SameBlocks s0) : s.Fetches (fetchHost s0) := by
  have h' : ∀ rest, s.SameBlocks { s0 with hostQ := rest } := fun _ => ⟨h.dev, h.peers, h.mem⟩
  unfold fetchHost
  split
  · exact .idle s0 h
  · exact fetchAccess_fetches (h' _) ..
  · exact fetchWait_fetches h ..
  · exact .idle _ ⟨h.dev, h.peers, h.mem⟩
  · exact .hostWrite _ _ _ (h' _)
  · exact fetchReset_fetches (h' _) _

end

theorem State.fetches (s : State) : s.Fetches s.fetch := by
  have h : s.SameBlocks { s with sched := s.sched.tail } := ⟨rfl, rfl, rfl⟩
  unfold State.fetch
  split
  · exact fetchEngine_fetches h _
  · exact fetchHost_fetches h

/-- No access of the window is a command. -/
theorem decodeMmio_not_command (a : Descriptor) (d : Word) : ¬ (decodeMmio a d).isCommand := by
  rcases decodeMmio_cases a d with ⟨-, h⟩ | ⟨-, h⟩ | ⟨-, h⟩ | ⟨-, h⟩ | ⟨_, -, h⟩ | ⟨-, h⟩ | ⟨-, h⟩ | ⟨-, h⟩ |
    ⟨-, h⟩ | ⟨-, h⟩ | ⟨-, h⟩ | ⟨_, -, h⟩ | ⟨_, -, h⟩ | ⟨_, -, h⟩ | ⟨-, h⟩ <;>
    simp [h, Instr.isCommand, Instr.isInit, Instr.isProcess]

/-- All that a step can do: an instruction run on a device, which is busy where the instruction is a command; a
reset; a host write to memory; or nothing to any block. -/
theorem step_effect {s t : State} (h : step s = .next t) :
    (∃ k i s1 u, s.SameBlocks s1 ∧ (i.isCommand → (s1.focus k).dev.busy = true) ∧
      Effect i (s1.focus k) u ∧ t = u.focus k) ∨
    (∃ k s1, s.SameBlocks s1 ∧ t = (s1.focus k).resetDevice.focus k) ∨
    (∃ a v s1, s.SameBlocks s1 ∧ t = s1.hostWrite a v) ∨ s.SameBlocks t := by
  have hf := s.fetches
  rcases step_cases h with ⟨k, i, s2, u, e, hu, rfl⟩ | e <;> rw [e] at hf
  · cases hf with
    | command k w s1 hs hb => exact .inl ⟨k, _, s1, u, hs, fun _ => hb, exec_effect hu, rfl⟩
    | access k a d s1 hs =>
      exact .inl ⟨k, _, s1, u, hs, fun hc => absurd hc (decodeMmio_not_command a d), exec_effect hu, rfl⟩
  · cases hf with
    | reset k s1 hs => exact .inr (.inl ⟨k, s1, hs, rfl⟩)
    | hostWrite a v s1 hs => exact .inr (.inr (.inl ⟨a, v, s1, hs, rfl⟩))
    | idle t hs => exact .inr (.inr (.inr hs))

/-! ## A property of devices along a step -/

/-- What every change of a device keeps, a command's on a busy one, and what a device has right after reset, every
device has after any step. -/
theorem step_forall_devices {P : Device → Prop}
    (hchange : ∀ {i d e}, (i.isCommand → d.busy = true) → Device.Change i d e → P d → P e)
    (hreset : ∀ {d}, P d → P (Device.reset d.base d.policy)) {s t : State} (h0 : P s.dev)
    (hp : ∀ d ∈ s.peers, P d) (h : step s = .next t) : P t.dev ∧ ∀ d ∈ t.peers, P d := by
  have same : ∀ {s1}, s.SameBlocks s1 → P s1.dev ∧ ∀ d ∈ s1.peers, P d :=
    fun hs => ⟨hs.dev ▸ h0, hs.peers ▸ hp⟩
  rcases step_effect h with ⟨k, i, s1, u, hs, hb, hu, rfl⟩ | ⟨k, s1, hs, rfl⟩ | ⟨a, v, s1, hs, rfl⟩ | hs
  · obtain ⟨h1, hp1⟩ := State.focus_forall k (same hs).1 (same hs).2
    exact State.focus_forall k (hchange hb hu.dev h1) (hu.peers ▸ hp1)
  · obtain ⟨h1, hp1⟩ := State.focus_forall k (same hs).1 (same hs).2
    refine State.focus_forall k ?_ ?_
    · rw [State.resetDevice_dev]; exact hreset h1
    · rw [State.resetDevice_peers]; exact hp1
  · exact ⟨(same hs).1, (same hs).2⟩
  · exact same hs

/-! ## Memory along a step -/

theorem State.resetDevice_mem (s : State) : s.resetDevice.mem = s.dropWrite.mem := rfl

/-- A step writes at most one byte of memory, at a bus address. -/
theorem step_mem_cases {s t : State} (h : step s = .next t) :
    t.mem = s.mem ∨ ∃ (a : Word) (v : Byte), t.mem = s.mem.write a.toNat v := by
  rcases step_effect h with ⟨k, i, s1, u, hs, -, hu, rfl⟩ | ⟨k, s1, hs, rfl⟩ | ⟨a, v, s1, hs, rfl⟩ | hs
  · rw [State.focus_mem]
    rcases hu.mem with e | ⟨-, v, e⟩ <;> rw [e, State.focus_mem, hs.mem]
    · exact .inl rfl
    · exact .inr ⟨_, v, rfl⟩
  · rw [State.focus_mem, State.resetDevice_mem]
    rcases (s1.focus k).dropWrite_cases with e | ⟨-, e⟩ <;> rw [e]
    · exact .inl (by rw [State.focus_mem, hs.mem])
    · exact .inr ⟨_, _, by rw [State.engineSet_mem, State.focus_mem, hs.mem]⟩
  · exact .inr ⟨a, _, by rw [← hs.mem]; rfl⟩
  · exact .inl hs.mem

theorem step_keeps_wf {s t : State} (hw : s.mem.wf = true) (h : step s = .next t) : t.mem.wf = true := by
  rcases step_mem_cases h with e | ⟨a, v, e⟩ <;> rw [e]
  · exact hw
  · exact Memory.wf_write _ v a.isLt hw

end Sys2Proof.Machine
end

section
/-! SUPPORT. The two invariants of 10_state section 1, kept by each change of a device: the registers (R28) and the
keystream cache (R29); then the statements that every step keeps them. -/

namespace Sys2Proof.Machine

/-! ## The register invariant -/

theorem Device.reset_inv {base : Word} (policy : Policy) (h : base.extractLsb' 0 8 = 0) :
    (Device.reset base policy).Inv where
  off_pos := (by decide : (16 : Fin 17) ≠ 0)
  w8_low := by simp [Device.reset]
  none_idle _ := ⟨rfl, rfl⟩
  base_aligned := h
  idle_key _ := rfl
  checked_busy := by simp [Device.reset]
  checked_ok := by simp [Device.reset]
  checked_i := by simp [Device.reset]

section
variable {d : Device}

/-- A completion leaves no key latched and no command in progress. -/
theorem Device.Inv.finish (h : d.Inv) (c : ErrCode) : (d.finish c).Inv where
  off_pos := h.off_pos
  w8_low := h.w8_low
  none_idle := h.none_idle
  base_aligned := h.base_aligned
  idle_key _ := rfl
  checked_busy := by simp
  checked_ok := by simp
  checked_i := by simp

/-- The low half of a 64-bit value shifted up is 0. -/
theorem append_zero_low (x : BitVec 64) : (x ++ (0 : BitVec 64)).extractLsb' 0 64 = 0 :=
  BitVec.extractLsb'_append_eq_right

/-- LoadIv and the advance leave OFF at 16 and an IV of their width (40_init R100, 43_ivadvance_access R152). -/
theorem Device.Inv.of_newSample {e : Device} (h : d.Inv) (hbase : e.base = d.base) (hoff : e.off = 16)
    (hmode : e.mode ≠ .none) (hlow : e.mode = .w8 → e.iv.extractLsb' 0 64 = 0) : (e.finish .ok).Inv where
  off_pos := by rw [Device.finish_off, hoff]; decide
  w8_low := hlow
  none_idle hm := absurd hm hmode
  base_aligned := hbase ▸ h.base_aligned
  idle_key _ := rfl
  checked_busy := by simp
  checked_ok := by simp
  checked_i := by simp

theorem Device.loadIv_low (il : BitVec 5) (v : Quad) (hm : (d.loadIv il v).mode = .w8) :
    (d.loadIv il v).iv.extractLsb' 0 64 = 0 := by
  have hil : il ≠ 16 := by rintro rfl; simp at hm
  rw [Device.loadIv_iv, if_neg hil, append_zero_low]

theorem Device.loadIv_mode_ne_none (il : BitVec 5) (v : Quad) : (d.loadIv il v).mode ≠ .none := by
  rw [Device.loadIv_mode]; split <;> simp

theorem nextIv_low {m : Mode} (iv b : Quad) (hm : m = .w8) : (nextIv m iv b).extractLsb' 0 64 = 0 := by
  rw [hm, nextIv, append_zero_low]

/-- A byte's offset is at most 15, so the commit's sum does not wrap. -/
theorem offset_add_one_val {o : Fin 17} (h : o ≠ 16) : (o + 1).val = o.val + 1 := by
  revert o; decide

theorem offset_add_one_ne_zero {o : Fin 17} (h : o ≠ 16) : o + 1 ≠ 0 := by
  intro h0
  have hv := offset_add_one_val h
  rw [h0] at hv
  exact absurd hv (Nat.succ_ne_zero _).symm

/-- CUR_I has 33 bits, so counting a byte of a 32-bit length does not wrap. -/
theorem Device.curI_add_one_toNat (hlt : d.curI.toNat < d.curLen.toNat) :
    (d.curI + 1).toNat = d.curI.toNat + 1 := by
  have hlen : d.curLen.toNat < 2 ^ 32 := d.curLen.isLt
  have hone : (1 : BitVec 33).toNat = 1 := rfl
  rw [BitVec.toNat_add, hone, Nat.mod_eq_of_lt (by omega)]

/-- The commit of a byte moves on within the command's length. -/
theorem Device.Inv.commitByte (h : d.Inv) {k : Keystream} (hp : d.procChecked = true)
    (hlt : d.curI.toNat < d.curLen.toNat) (hk : d.nextKeystream = .ok k) : (d.commitByte k).Inv where
  off_pos := by
    rcases Device.nextKeystream_ok hk with ⟨h16, rfl⟩ | ⟨-, -, rfl⟩
    · exact offset_add_one_ne_zero h16
    · exact offset_add_one_ne_zero (by decide : (0 : Fin 17) ≠ 16)
  w8_low := h.w8_low
  none_idle hm := absurd hm (h.checked_ok hp).1
  base_aligned := h.base_aligned
  idle_key := h.idle_key
  checked_busy := h.checked_busy
  checked_ok := h.checked_ok
  checked_i _ := by
    rw [Device.commitByte_curI, Device.commitByte_curLen, Device.curI_add_one_toNat hlt]
    exact hlt

/-- Every change keeps the invariant, a command's on a busy device. -/
theorem Device.Change.keeps_inv {i : Instr} {e : Device} (hb : i.isCommand → d.busy = true)
    (hc : Device.Change i d e) (h : d.Inv) : e.Inv := by
  cases hc with
  | same hi => exact h
  | overrun w hi hbusy => exact { h with }
  | accept w hi hidle =>
    exact { h with
      idle_key := by simp
      checked_busy := by simp
      checked_ok := by simp
      checked_i := by simp }
  | writeStatus w hi => exact { h with }
  | writeSrc v hi => exact { h with }
  | writeDst v hi => exact { h with }
  | writeLen v hi => exact { h with }
  | writeKeyIn k v hi => exact { h with }
  | writeIvIn k v hi => exact { h with }
  | complete c hi => exact h.finish c
  | loadKey il v hi =>
    exact h.of_newSample (by simp) (by simp) (Device.loadIv_mode_ne_none _ _) (Device.loadIv_low il v)
  | loadIv il v hi =>
    exact h.of_newSample (by simp) (by simp) (Device.loadIv_mode_ne_none _ _) (Device.loadIv_low il v)
  | advance hi hm => exact h.of_newSample rfl rfl hm (nextIv_low _ _)
  | issue hi hp hm hr =>
    exact { h with
      idle_key := fun hidle => absurd (hb (isCommand_of_isProcess hi)) (by simp at hidle; simp [hidle])
      checked_busy := fun _ => hb (isCommand_of_isProcess hi)
      checked_ok := fun _ => ⟨hm, hr⟩
      checked_i := by simp }
  | commit k hi hp hlt hk => exact h.commitByte hp hlt hk

/-! ## The keystream cache -/

theorem Device.ksConsistent_of_off (h : d.off = 16) : d.KsConsistent := fun hne => absurd h hne

/-- A committed byte leaves in KS the block that BLKCNT counted last (10_state R29). -/
theorem Device.KsConsistent.commitByte (h : d.KsConsistent) {k : Keystream} (hk : d.nextKeystream = .ok k) :
    (d.commitByte k).KsConsistent := by
  intro _
  rcases Device.nextKeystream_ok hk with ⟨h16, rfl⟩ | ⟨-, -, rfl⟩
  · exact h h16
  · simp

/-- Every change keeps the cache consistent: KEY, MODE, IV and BLKCNT change only together with OFF := 16 or
with KS. -/
theorem Device.Change.keeps_ks {i : Instr} {e : Device} (hc : Device.Change i d e) (h : d.KsConsistent) :
    e.KsConsistent := by
  cases hc with
  | loadKey il v hi => exact Device.ksConsistent_of_off (by simp)
  | loadIv il v hi => exact Device.ksConsistent_of_off (by simp)
  | advance hi hm => exact Device.ksConsistent_of_off rfl
  | commit k hi hp hlt hk => exact h.commitByte hk
  | _ => exact h

end

/-! ## The statements -/

/-- Settles O11: each change of a device keeps its invariant, and a step writes one byte of memory at most. -/
theorem stepKeepsInvariant : Obligations.StepKeepsInvariant := by
  intro s t hs h
  obtain ⟨hdev, hpeers⟩ := step_forall_devices (fun hb hc hd => hc.keeps_inv hb hd)
    (fun hd => Device.reset_inv _ hd.base_aligned) hs.dev hs.peers h
  exact ⟨hdev, hpeers, step_keeps_wf hs.mem h⟩

/-- Settles O12: each change of a device keeps its cache consistent. -/
theorem stepKeepsKeystream : Obligations.StepKeepsKeystream := by
  intro s t _ hdev hpeers h
  exact step_forall_devices (fun _ hc hd => hc.keeps_ks hd) (fun _ => Device.ksConsistent_of_off rfl)
    hdev hpeers h

/-- Settles O10: the reset values of 10_state R43 meet each clause. -/
theorem resetMeetsInvariants : Obligations.ResetMeetsInvariants :=
  ⟨⟨Device.reset_inv _ rfl, by simp [State.reset], State.reset_wf⟩, Device.ksConsistent_of_off rfl⟩

end Sys2Proof.Machine
end

section
/-! SUPPORT. Which step an agent's turn is (70_reset_and_hazards R204, 20_memory section 1), and the changes of
places around it; then the statements about single steps, isolation and the memory at a reset. -/

namespace Sys2Proof.Machine

/-! ## Parts of the state that a change of places leaves alone -/

theorem State.focus_hostBusError (s : State) (k : Nat) :
    s.hostBusError.focus k = (s.focus k).hostBusError := by
  cases k with
  | zero => rfl
  | succ k => simp only [State.focus, State.hostBusError_peers]; split <;> rfl

theorem State.focus_accessFails (s : State) (k : Nat) (a : Word) :
    (s.focus k).accessFails a = s.accessFails a := by
  cases k with
  | zero => rfl
  | succ k => simp only [State.focus]; split <;> rfl

/-- The devices do not depend on the host's side of the state. -/
theorem State.SameBlocks.device? {s t : State} (h : s.SameBlocks t) (k : Nat) : t.device? k = s.device? k := by
  cases k with
  | zero => exact congrArg some h.dev
  | succ k => exact congrArg (·[k]?) h.peers

theorem State.SameBlocks.locate {s t : State} (h : s.SameBlocks t) (a : Word) : t.locate a = s.locate a := by
  rw [State.locate, h.dev, h.peers, State.locate]

/-- An operation on device number `k` that changes no block leaves every device in its place as it was. -/
theorem State.device?_focus_of_sameBlocks {s u : State} {k : Nat} {d : Device} (hd : s.device? k = some d)
    (hu : (s.focus k).SameBlocks u) (j : Nat) : (u.focus k).device? j = s.device? j := by
  by_cases hj : j = k
  · rw [hj, State.device?_focus_same hd hu.peers, hu.dev, State.focus_dev hd, hd]
  · exact State.device?_focus_other hd hu.peers hj

/-! ## The host's turn -/

/-- The state in which the host's operation and the schedule's entry are used up. -/
def State.afterHostOp (s : State) (rest : List HostOp) : State := { s with sched := s.sched.tail, hostQ := rest }

theorem State.afterHostOp_sameBlocks (s : State) (rest : List HostOp) : s.SameBlocks (s.afterHostOp rest) :=
  ⟨rfl, rfl, rfl⟩

theorem State.fetch_of_access {s : State} {wr : Bool} {size : AccessSize} {addr data : Word}
    {rest : List HostOp} (ht : s.turn = .host) (hq : s.hostQ = .access wr size addr data :: rest) :
    s.fetch = fetchAccess (s.afterHostOp rest) wr size addr data := by
  rw [State.fetch_of_host ht]
  simp only [fetchHost, hq]
  rfl

section
variable {s : State} {k : Nat} {d : Device} {addr : Word}

/-- A 32-bit access of a window fetches the instruction of its descriptor. -/
theorem fetchAccess_of_word (hl : s.locate addr = some k) (hd : s.device? k = some d) (wr : Bool)
    (data : Word) : fetchAccess s wr .word addr data =
      .run k (decodeMmio (d.descriptorOf wr addr) data) (s.focus k) := by
  simp only [fetchAccess, hl, ne_eq, not_true, if_false, State.focus_dev hd]

theorem fetchAccess_of_otherSize (hl : s.locate addr = some k) {size : AccessSize} (hs : size ≠ .word)
    (wr : Bool) (data : Word) : fetchAccess s wr size addr data = .done s.hostBusError := by
  simp only [fetchAccess, hl, ne_eq, hs, not_false_eq_true, if_true]

theorem fetchAccess_of_unlocated (hl : s.locate addr = none) (wr : Bool) (size : AccessSize) (data : Word) :
    fetchAccess s wr size addr data = .done (s.answer .notClaimed) := by
  simp only [fetchAccess, hl]

end

/-- The step of a run instruction, its outcome put back in place. -/
theorem step_eq_mapNext {s s1 : State} {k : Nat} {i : Instr} (hf : s.fetch = .run k i s1) :
    step s = mapNext (fun t => t.focus k) (exec i s1) := by
  obtain ⟨u, hu⟩ := exec_answers i s1
  rw [step_of_run hf hu, hu, mapNext]

/-- The step of a host's 32-bit access of a window. -/
theorem step_of_access {s : State} {k : Nat} {d : Device} {wr : Bool} {addr data : Word} {rest : List HostOp}
    (ht : s.turn = .host) (hq : s.hostQ = .access wr .word addr data :: rest) (hl : s.locate addr = some k)
    (hd : s.device? k = some d) :
    step s = mapNext (fun t => t.focus k) (exec (decodeMmio (d.descriptorOf wr addr) data)
      ((s.afterHostOp rest).focus k)) := by
  have hs := s.afterHostOp_sameBlocks rest
  apply step_eq_mapNext
  rw [State.fetch_of_access ht hq, fetchAccess_of_word (by rw [hs.locate, hl]) (by rw [hs.device?, hd])]

/-- The value a STATUS read returns has BUSY at bit 0. -/
theorem State.statusRead_busy (s : State) : s.statusRead.getLsbD 0 = s.dev.busy := by
  unfold State.statusRead
  cases s.dev.busy <;> exact statusWord_busy ..

/-- A STATUS read is answered with the STATUS word, and leaves the host's other operations. -/
theorem exec_rdStatus_answer (s : State) :
    ∃ t, exec .rdStatus s = .next t ∧ t.resp = .data s.statusRead ∧ t.hostQ = s.hostQ := by
  cases hb : s.dev.busy with
  | true => exact ⟨_, exec_rdStatus_of_busy hb, rfl, rfl⟩
  | false => exact ⟨_, exec_rdStatus_of_idle hb, rfl, rfl⟩

theorem fetchWait_eq {s : State} {k : Nat} {d : Device} {base : Word} {rest : List HostOp}
    (hl : s.locate base = some k) (hd : s.device? k = some d) :
    fetchWait s base rest = .run k .rdStatus ((if d.busy then s else { s with hostQ := rest }).focus k) := by
  simp only [fetchWait, hl, State.focus_dev hd]
  cases d.busy <;> rfl

/-- WAIT fetches a STATUS read of the window's device, itself left in the queue while BUSY = 1 (30_encoding
R84). -/
theorem fetch_of_wait {s : State} {k : Nat} {d : Device} {base : Word} {rest : List HostOp}
    (ht : s.turn = .host) (hq : s.hostQ = .wait base :: rest) (hl : s.locate base = some k)
    (hd : s.device? k = some d) :
    s.fetch = .run k .rdStatus ((s.afterHostOp (if d.busy then .wait base :: rest else rest)).focus k) := by
  have hs : s.SameBlocks { s with sched := s.sched.tail } := ⟨rfl, rfl, rfl⟩
  rw [State.fetch_of_host ht, fetchHost]
  simp only [hq]
  rw [← hq, fetchWait_eq ((hs.locate base).trans hl) ((hs.device? k).trans hd)]
  cases d.busy <;> rfl

/-! ## Descriptors that are no word's -/

/-- A descriptor at an offset that is no multiple of 4 is of no row (30_encoding R82). -/
theorem namedDescriptor_of_misaligned (a : Descriptor) (h : a.extractLsb' 0 2 ≠ 0) :
    namedDescriptor a = false := by
  revert a; decide

theorem descriptorOf_misaligned {d : Device} {addr : Word} (wr : Bool) (h : (addr - d.base).toNat % 4 ≠ 0) :
    (d.descriptorOf wr addr).extractLsb' 0 2 ≠ 0 := by
  have low : (d.descriptorOf wr addr).extractLsb' 0 2 = (addr - d.base).extractLsb' 0 2 := by
    ext i hi
    have h8 : 0 + i < 8 := by omega
    simp only [Device.descriptorOf, BitVec.getElem_extractLsb', BitVec.getLsbD_append, h8, if_true]
    simp only [BitVec.getLsbD_setWidth, h8, decide_true, Bool.true_and]
  rw [low]
  intro h0
  exact h (by simpa [BitVec.extractLsb'_toNat] using congrArg BitVec.toNat h0)

/-! ## The statements -/

/-- Settles O13: whatever is fetched, its meaning answers a next state. -/
theorem stepAlwaysAnswers : Obligations.StepAlwaysAnswers := by
  intro s
  cases hf : s.fetch with
  | run k i s1 =>
    obtain ⟨u, hu⟩ := exec_answers i s1
    exact ⟨_, step_of_run hf hu⟩
  | done t => exact ⟨t, step_of_done hf⟩

/-- Settles O18: a busy engine's turn fetches its latched command. -/
theorem engineStepRunsCommand : Obligations.EngineStepRunsCommand := by
  intro s k d ht hd hb
  obtain ⟨u, hu⟩ := exec_answers (decodeCmd d.curCmd) ({ s with sched := s.sched.tail }.focus k)
  rw [step_of_busyEngine ht hd hb hu, hu, mapNext]

/-- Settles O19: the host's turn fetches the access of the descriptor. -/
theorem hostStepRunsAccess : Obligations.HostStepRunsAccess := by
  intro s k d wr addr data rest ht hq hl hd
  exact step_of_access ht hq hl hd

/-- Settles O20: each of the three turns fetches no instruction. -/
theorem idleSteps : Obligations.IdleSteps := by
  intro s
  have hs : s.SameBlocks { s with sched := s.sched.tail } := ⟨rfl, rfl, rfl⟩
  refine ⟨fun ht hq => step_of_done ?_, fun k d ht hd hb => step_of_done ?_,
    fun wr size addr data rest ht hq hl => step_of_done ?_⟩
  · rw [State.fetch_of_host ht]
    simp only [fetchHost, hq]
  · rw [State.fetch_of_engine ht, fetchEngine, hs.device?, hd]
    exact if_neg (by simp [hb])
  · rw [State.fetch_of_access ht hq]
    exact fetchAccess_of_unlocated ((s.afterHostOp_sameBlocks rest).locate addr ▸ hl) wr size data

/-- Settles O21: another size fetches the bus error, and a misaligned word is the fallback row, whose meaning is
the bus error. -/
theorem badAccessIsBusError : Obligations.BadAccessIsBusError := by
  intro s k d wr size addr data rest ht hq hl hd hbad
  by_cases hsize : size = .word
  · subst hsize
    have hmis := descriptorOf_misaligned wr (hbad.resolve_left (not_not_intro rfl))
    rw [step_of_access ht hq hl hd, decodeMmio_of_unnamed (namedDescriptor_of_misaligned _ hmis),
      exec_mmioOther_of_misaligned hmis, mapNext, State.focus_hostBusError, State.focus_focus]
    rfl
  · apply step_of_done
    rw [State.fetch_of_access ht hq]
    exact fetchAccess_of_otherSize ((s.afterHostOp_sameBlocks rest).locate addr ▸ hl) hsize wr data

/-- Settles O14: the engine's step runs on its own device between two changes of places, and an instruction
changes no other device. -/
theorem devicesIsolated : Obligations.DevicesIsolated := by
  intro s t k j ht hj h
  have hs : s.SameBlocks { s with sched := s.sched.tail } := ⟨rfl, rfl, rfl⟩
  rw [← hs.device?]
  have hf := State.fetch_of_engine ht
  rcases fetchEngine_cases { s with sched := s.sched.tail } k with ⟨d, hd, -, e⟩ | e <;> rw [e] at hf
  · obtain ⟨u, hu⟩ := exec_answers (decodeCmd d.curCmd) ({ s with sched := s.sched.tail }.focus k)
    obtain rfl := Host.Outcome.next.inj (h.symm.trans (step_of_run hf hu))
    exact State.device?_focus_other hd (exec_effect hu).peers hj
  · rw [Host.Outcome.next.inj (h.symm.trans (step_of_done hf))]

/-- Settles O8: a reset writes memory only where a write can be in flight, at that write's address. -/
theorem resetKeepsMemory : Obligations.ResetKeepsMemory := by
  intro s k d addr rest a ht hq hl hd ha
  refine ⟨_, step_of_resetInput ht hq hl, ?_⟩
  change (((s.afterHostOp rest).focus k).resetDevice.focus k).mem.read a = _
  have hdev : ((s.afterHostOp rest).focus k).dev = d :=
    State.focus_dev (by rw [(s.afterHostOp_sameBlocks rest).device?, hd])
  rw [State.focus_mem, State.resetDevice_mem]
  rcases ((s.afterHostOp rest).focus k).dropWrite_cases with e | ⟨hw, e⟩ <;> rw [e]
  · rw [State.focus_mem]; rfl
  · obtain ⟨hb, hcmd, hp, hlt, hks, hread⟩ := (State.mayWrite_iff _).mp hw
    rw [hdev] at hb hcmd hp hlt hks hread ⊢
    rw [State.focus_accessFails] at hread
    rw [State.engineSet_mem, State.focus_mem]
    exact Memory.read_write_other _ _ (ha hb hp hlt hcmd hks hread)

/-- Settles O22: WAIT is a STATUS read of the device, from the state in which it stays queued while BUSY = 1. -/
theorem waitPollsStatus : Obligations.WaitPollsStatus := by
  intro s k d base rest ht hq hl hd
  have hd' := ((s.afterHostOp_sameBlocks (if d.busy then .wait base :: rest else rest)).device? k).trans hd
  obtain ⟨u, hu, hresp, hqu⟩ :=
    exec_rdStatus_answer ((s.afterHostOp (if d.busy then .wait base :: rest else rest)).focus k)
  obtain ⟨hs, -⟩ := exec_leavesBlocks .rdStatus hu
  refine ⟨_, _, step_of_run (fetch_of_wait ht hq hl hd) hu, by rw [State.focus_resp, hresp], ?_, fun j => ?_, ?_, ?_⟩
  · rw [State.statusRead_busy, State.focus_dev hd']
  · rw [State.device?_focus_of_sameBlocks hd' hs]
    exact (s.afterHostOp_sameBlocks _).device? j
  · rw [State.focus_mem, hs.mem, State.focus_mem]; rfl
  · rw [State.focus_hostQ, hqu, State.focus_hostQ]; rfl

end Sys2Proof.Machine
end

section
/-! SUPPORT. The window's reads (20_memory R53, 10_state section 2): which reads there are, what each answers, idle
and busy, and the packing of the staging registers; then the statements about them. -/

namespace Sys2Proof.Machine

/-! ## The reads -/

/-- What a descriptor with W = 0 decodes to: one of the reads, or the fallback without data. -/
theorem decodeMmio_read_cases {a : Descriptor} (ha : a.msb = false) (d : Word) :
    decodeMmio a d = .rdStatus ∨ decodeMmio a d = .rdBlkoff ∨ (∃ k, decodeMmio a d = .rdIvOut k) ∨
    decodeMmio a d = .rdSrc ∨ decodeMmio a d = .rdDst ∨ decodeMmio a d = .rdLen ∨
    (∃ k, decodeMmio a d = .rdIvIn k) ∨ decodeMmio a d = .mmioOther a 0 := by
  have notWrite : ∀ {P : Prop}, a.msb = true → P := fun h => absurd (h.symm.trans ha) (by decide)
  rcases decodeMmio_cases a d with ⟨e, -⟩ | ⟨-, h⟩ | ⟨e, -⟩ | ⟨-, h⟩ | ⟨k, -, h⟩ | ⟨e, -⟩ | ⟨e, -⟩ | ⟨e, -⟩ |
    ⟨-, h⟩ | ⟨-, h⟩ | ⟨-, h⟩ | ⟨k, e, -⟩ | ⟨k, e, -⟩ | ⟨k, -, h⟩ | ⟨-, h⟩
  · exact notWrite (by rw [e]; rfl)
  · exact .inl h
  · exact notWrite (by rw [e]; rfl)
  · exact .inr (.inl h)
  · exact .inr (.inr (.inl ⟨k, h⟩))
  · exact notWrite (by rw [e]; rfl)
  · exact notWrite (by rw [e]; rfl)
  · exact notWrite (by rw [e]; rfl)
  · exact .inr (.inr (.inr (.inl h)))
  · exact .inr (.inr (.inr (.inr (.inl h))))
  · exact .inr (.inr (.inr (.inr (.inr (.inl h)))))
  · exact notWrite (by rw [e]; exact (indexedDescriptor_msb k).2.1)
  · exact notWrite (by rw [e]; exact (indexedDescriptor_msb k).2.2.1)
  · exact .inr (.inr (.inr (.inr (.inr (.inr (.inl ⟨k, h⟩))))))
  · exact .inr (.inr (.inr (.inr (.inr (.inr (.inr (by rw [h, ha]; rfl)))))))

theorem decodeMmio_leavesBlocks {a : Descriptor} (ha : a.msb = false) (d : Word) :
    LeavesBlocks (decodeMmio a d) := by
  rcases decodeMmio_read_cases ha d with h | h | ⟨k, h⟩ | h | h | h | ⟨k, h⟩ | h <;> rw [h] <;> constructor

theorem exec_rdBlkoff (s : State) : exec .rdBlkoff s = .next (s.bumpIfBusy.answer (.data s.blkoffRead)) := rfl

theorem exec_rdIvOut (k : BitVec 2) (s : State) :
    exec (.rdIvOut k) s = .next (s.bumpIfBusy.answer (.data (s.ivOutRead k))) := rfl

theorem exec_rdSrc (s : State) : exec .rdSrc s = .next (s.answer (.data s.dev.src)) := rfl

theorem exec_rdDst (s : State) : exec .rdDst s = .next (s.answer (.data s.dev.dst)) := rfl

theorem exec_rdLen (s : State) : exec .rdLen s = .next (s.answer (.data s.dev.len)) := rfl

theorem exec_rdIvIn (k : BitVec 2) (s : State) :
    exec (.rdIvIn k) s = .next (s.answer (.data (s.dev.ivIn.get k))) := rfl

/-! ## STATUS -/

theorem State.statusRead_of_idle {s : State} (h : s.dev.busy = false) :
    s.statusRead = statusWord s.dev.ovr s.dev.errseen s.dev.err.bits s.dev.mode.ivlen s.dev.mode.init false :=
  if_neg (by simp [h])

theorem State.statusRead_of_busy {s : State} (h : s.dev.busy = true) :
    s.statusRead = statusWord s.dev.ovr s.dev.errseen (Config.busyErr s.free) (Config.busyIvlen s.free)
      (Config.busyInit s.free) true :=
  if_pos h

/-- INIT is MODE ≠ NONE (10_state R27). -/
theorem Mode.init_iff (m : Mode) : m.init.getLsbD 0 = true ↔ m ≠ .none := by
  cases m <;> decide

/-! ## BLKOFF -/

/-- Bits 31:4 of BLKOFF are 0, idle or busy (10_state R34). -/
theorem State.blkoffRead_high (s : State) : s.blkoffRead.extractLsb' 4 28 = 0 := by
  unfold State.blkoffRead
  split <;> exact BitVec.extractLsb'_append_eq_left

/-- After `T` bytes of a sample, OFF mod 16 is `T` mod 16 (42_process R138). -/
theorem Device.SampleAt.off_mod {d : Device} {T : Nat} (h : d.SampleAt T) : d.off.val % 16 = T % 16 := by
  rw [h.off]
  split <;> omega

/-! ## Bytes and words of four registers -/

/-- Word `k` of four staging registers is register `k` (20_memory R55). -/
theorem wordAt_cat (q : Words4) (k : BitVec 2) : wordAt q.cat k = q.get k := by
  unfold wordAt Words4.cat
  rcases index_cases k with rfl | rfl | rfl | rfl
  · rw [BitVec.extractLsb'_append_eq_of_le (by decide), BitVec.extractLsb'_append_eq_of_le (by decide)]
    exact BitVec.extractLsb'_append_eq_left
  · rw [BitVec.extractLsb'_append_eq_of_le (by decide), BitVec.extractLsb'_append_eq_of_le (by decide)]
    exact BitVec.extractLsb'_append_eq_right
  · rw [BitVec.extractLsb'_append_eq_of_le (by decide)]
    exact BitVec.extractLsb'_append_eq_right
  · exact BitVec.extractLsb'_append_eq_right

/-- A field of a field is a field. -/
theorem extractLsb'_of_extractLsb' {w : Nat} (x : BitVec w) (first start : Nat) {len len' : Nat}
    (h : start + len ≤ len') :
    (x.extractLsb' first len').extractLsb' start len = x.extractLsb' (first + start) len := by
  ext i hi
  have hlt : start + i < len' := by omega
  simp [hlt, Nat.add_assoc]

/-- Byte `4k + j` is byte `j` of word `k`. -/
theorem byteAt_eq_wordAt (v : Quad) (k : BitVec 2) {j : Nat} (hj : j < 4) :
    byteAt v (4 * k.toNat + j) = (wordAt v k).extractLsb' (24 - 8 * j) 8 := by
  have hk : k.toNat < 4 := k.isLt
  have hstart : 120 - 8 * (4 * k.toNat + j) = 96 - 32 * k.toNat + (24 - 8 * j) := by omega
  rw [byteAt, if_pos (by omega), wordAt, extractLsb'_of_extractLsb' _ _ _ (by omega), hstart]

theorem Words4.get_set (q : Words4) (k j : BitVec 2) (v : Word) :
    (q.set k v).get j = if j = k then v else q.get j := by
  rcases index_cases k with rfl | rfl | rfl | rfl <;> rcases index_cases j with rfl | rfl | rfl | rfl <;> rfl

/-! ## The statements -/

/-- Settles O16: a descriptor with W = 0 is a read or the fallback, and neither touches a block. -/
theorem windowReadsChangeNothing : Obligations.WindowReadsChangeNothing := by
  intro s t a d ha h
  obtain ⟨⟨hdev, hpeers, hmem⟩, -⟩ := exec_leavesBlocks (decodeMmio_leavesBlocks ha d) h
  exact ⟨hdev, hpeers, hmem⟩

/-- Settles O17: the value that each read answers names none of the five elements. -/
theorem keyIsNotReadable : Obligations.KeyIsNotReadable := by
  intro s a d key ks blkcnt curKey keyIn ha _
  rcases decodeMmio_read_cases ha d with h | h | ⟨k, h⟩ | h | h | h | ⟨k, h⟩ | h <;> rw [h]
  · obtain ⟨t, ht, hresp, -⟩ := exec_rdStatus_answer s
    obtain ⟨t', ht', hresp', -⟩ := exec_rdStatus_answer (s.withDev { s.dev with
      key := key, ks := ks, blkcnt := blkcnt, curKey := curKey, keyIn := keyIn })
    exact ⟨t, t', ht, ht', by rw [hresp, hresp']; rfl⟩
  · exact ⟨_, _, exec_rdBlkoff _, exec_rdBlkoff _, rfl⟩
  · exact ⟨_, _, exec_rdIvOut k _, exec_rdIvOut k _, rfl⟩
  · exact ⟨_, _, exec_rdSrc _, exec_rdSrc _, rfl⟩
  · exact ⟨_, _, exec_rdDst _, exec_rdDst _, rfl⟩
  · exact ⟨_, _, exec_rdLen _, exec_rdLen _, rfl⟩
  · exact ⟨_, _, exec_rdIvIn k _, exec_rdIvIn k _, rfl⟩
  · by_cases h0 : a.extractLsb' 0 2 = 0
    · exact ⟨_, _, exec_mmioOther_of_read h0 ha 0, exec_mmioOther_of_read h0 ha 0, rfl⟩
    · exact ⟨_, _, exec_mmioOther_of_misaligned h0 0, exec_mmioOther_of_misaligned h0 0, rfl⟩

/-- Settles O26: word `k` of the operand is register `k`, and a byte lies in one word. -/
theorem stagingBytePacking : Obligations.StagingBytePacking := by
  refine ⟨fun q k j hj => ?_, Words4.get_set⟩
  rw [byteAt_eq_wordAt _ _ hj, wordAt_cat]

/-- Settles O28: the fields of the STATUS word of an idle device. -/
theorem statusReadIdle : Obligations.StatusReadIdle := by
  intro s h
  refine ⟨_, _, exec_rdStatus_of_idle h, rfl, ?_⟩
  rw [State.statusRead_of_idle h]
  refine ⟨statusWord_busy .., ?_, ?_, statusWord_bit7 .., ?_, statusWord_errseen .., statusWord_ovr ..,
    statusWord_reserved .., rfl, rfl, rfl⟩
  · rw [statusWord_init, Mode.init_iff]
  · rw [statusWord_ivlen]
    cases s.dev.mode <;> rfl
  · rw [statusWord_err]
    cases s.dev.err <;> rfl

/-- Settles O29: BUSY, the reserved bits and the two sticky bits are no free values. -/
theorem busyReads : Obligations.BusyReads := by
  intro s k h
  refine ⟨⟨_, _, exec_rdStatus_of_busy h, rfl, ?_⟩,
    ⟨_, _, exec_rdBlkoff s, rfl, s.blkoffRead_high, s.bumpIfBusy_sameBlocks.dev⟩,
    ⟨_, _, exec_rdIvOut k s, rfl, s.bumpIfBusy_sameBlocks.dev⟩⟩
  rw [State.statusRead_of_busy h]
  exact ⟨statusWord_busy .., statusWord_bit7 .., statusWord_errseen .., statusWord_ovr ..,
    statusWord_reserved .., rfl⟩

/-- Settles O52: BLKOFF reads OFF mod 16, which counts the sample's bytes. -/
theorem blkoffCountsBytes : Obligations.BlkoffCountsBytes := by
  intro s T hidle hT
  exact ⟨_, _, exec_rdBlkoff_of_idle hidle, rfl, by rw [State.blkoffRead_toNat_of_idle hidle, hT.off_mod]⟩

/-- Settles O27: none of the four looks at BUSY. -/
theorem stagingReadsAnswer : Obligations.StagingReadsAnswer := by
  intro s k
  exact ⟨exec_rdSrc s, exec_rdDst s, exec_rdLen s, exec_rdIvIn k s⟩

/-- Settles O33: an aligned access takes one of the two branches by W. -/
theorem otherAccesses : Obligations.OtherAccesses := by
  intro s a d h0
  exact ⟨fun hr => exec_mmioOther_of_read h0 hr d, fun hw => exec_mmioOther_of_write h0 hw d⟩

/-- Settles O9: a word offset is aligned and a read, and each register and view of the reset device is 0. -/
theorem resetReadsZero : Obligations.ResetReadsZero := by
  intro k
  have hread : ((0 : BitVec 1) ++ k ++ (0 : BitVec 2)).msb = false := by revert k; decide
  have h0 : ((0 : BitVec 1) ++ k ++ (0 : BitVec 2)).extractLsb' 0 2 = 0 := by revert k; decide
  rcases decodeMmio_read_cases hread 0 with h | h | ⟨j, h⟩ | h | h | h | ⟨j, h⟩ | h <;> rw [h]
  · exact ⟨_, exec_rdStatus_of_idle rfl, congrArg Resp.data (by decide)⟩
  · exact ⟨_, exec_rdBlkoff_of_idle rfl, congrArg Resp.data (by decide)⟩
  · exact ⟨_, exec_rdIvOut_of_idle rfl j, congrArg Resp.data BitVec.extractLsb'_zero⟩
  · exact ⟨_, exec_rdSrc _, rfl⟩
  · exact ⟨_, exec_rdDst _, rfl⟩
  · exact ⟨_, exec_rdLen _, rfl⟩
  · exact ⟨_, exec_rdIvIn j _, congrArg Resp.data (by rcases index_cases j with rfl | rfl | rfl | rfl <;> rfl)⟩
  · exact ⟨_, exec_mmioOther_of_read h0 hread 0, rfl⟩

/-- Settles O58: the read closes the windows of its device. -/
theorem statusReadEndsRaces : Obligations.StatusReadEndsRaces := by
  intro s h
  exact ⟨_, exec_rdStatus_of_idle h, fun w => by simp⟩

/-! ## Writes of CMD and STATUS -/

/-- Settles O23: on an idle device the CMD write is the acceptance. -/
theorem cmdWriteAccepts : Obligations.CmdWriteAccepts := by
  intro s w h
  exact ⟨_, exec_wrCmd_of_idle h w, rfl, rfl, rfl, rfl⟩

/-- Settles O30: keeping a bit unless its clear bit is 1 is clearing it by that bit. -/
theorem statusWriteClears : Obligations.StatusWriteClears := by
  intro s w
  have keep : ∀ b c : Bool, (b && !c) = if c then false else b := by decide
  change Host.Outcome.next (s.ackWith (s.dev.writeStatus w)) = _
  rw [State.ackWith_eq, Device.writeStatus, keep, keep]

end Sys2Proof.Machine
end

section
/-! SUPPORT. The commands but PROCESS's bytes: what each check answers (40_init R102 to R104, 42_process R131), the
bytes of a drawn IV, and completion; then the statements of their results. -/

namespace Sys2Proof.Machine

/-! ## The checks of the initialization commands -/

/-- The key length first, then the IV length (40_init R102, R103). -/
theorem initCheck_of_keyLen {kl : BitVec 5} (h : kl.toNat ≠ 16) (il : BitVec 5) :
    initCheck kl il = some .invalidKeySize :=
  if_pos (by simpa [keyLenLegal_iff, ← Bool.not_eq_true] using h)

theorem initCheck_of_ivLen {kl il : BitVec 5} (hk : kl.toNat = 16) (h8 : il.toNat ≠ 8) (h16 : il.toNat ≠ 16) :
    initCheck kl il = some .invalidIvSize := by
  have hkl : keyLenLegal kl = true := (keyLenLegal_iff kl).mpr hk
  have hil : ivLenLegal il = false := by
    rw [← Bool.not_eq_true, ivLenLegal_iff]
    exact not_or.mpr ⟨h8, h16⟩
  simp [initCheck, hkl, hil]

/-- LoadIv with a 16-byte IV takes all of it, and with an 8-byte IV its high half (40_init R100). -/
theorem Device.loadIv_sixteen (d : Device) (v : Quad) :
    d.loadIv 16 v = { d with mode := .w16, iv := v, blkcnt := 0, off := 16 } := rfl

theorem Device.loadIv_eight (d : Device) (v : Quad) :
    d.loadIv 8 v = { d with mode := .w8, iv := v.extractLsb' 64 64 ++ (0 : BitVec 64), blkcnt := 0, off := 16 } :=
  rfl

section
variable (s : State) {kl il : BitVec 5}

theorem exec_initIv_of_fail {c : ErrCode} (h : initCheck kl il = some c) :
    exec (.initIv kl il) s = .next (s.finish c) := by
  change Host.Outcome.next (s.withDev (s.dev.initIv kl il)) = _
  rw [Device.initIv, h]
  rfl

theorem exec_initIv_of_ok (h : initCheck kl il = none) : exec (.initIv kl il) s =
    .next (s.withDev (({ s.dev with key := s.dev.curKey }.loadIv il s.dev.curIv).finish .ok)) := by
  change Host.Outcome.next (s.withDev (s.dev.initIv kl il)) = _
  rw [Device.initIv, h]

theorem exec_initRand_of_fail {c : ErrCode} (h : initCheck kl il = some c) :
    exec (.initRand kl il) s = .next (s.finish c) := by
  change execInitRand kl il s = _
  rw [execInitRand, h]

theorem exec_initRand_of_ok (h : initCheck kl il = none) : exec (.initRand kl il) s = .next
    (s.bumpFree.withDev (({ s.dev with key := s.dev.curKey }.loadIv il (drawnIv s.free il)).finish .ok)) := by
  change execInitRand kl il s = _
  rw [execInitRand, h]

end

/-! ## The bytes of a drawn IV -/

theorem bigEndian_lt (l : List Byte) : bigEndian l < 2 ^ (8 * l.length) := by
  induction l with
  | nil => simp [bigEndian]
  | cons b bs ih =>
    have hb : b.toNat < 2 ^ 8 := b.isLt
    rw [bigEndian, List.length_cons, Nat.mul_succ, Nat.pow_add]
    calc b.toNat * 2 ^ (8 * bs.length) + bigEndian bs
        < b.toNat * 2 ^ (8 * bs.length) + 2 ^ (8 * bs.length) := by omega
      _ = (b.toNat + 1) * 2 ^ (8 * bs.length) := by ring
      _ ≤ 2 ^ 8 * 2 ^ (8 * bs.length) := Nat.mul_le_mul_right _ hb
      _ = 2 ^ (8 * bs.length) * 2 ^ 8 := Nat.mul_comm _ _

/-- Byte `j` of a big-endian number is byte `j` of the sequence (00_scope R8). -/
theorem bigEndian_byte (l : List Byte) {j : Nat} (hj : j < l.length) :
    bigEndian l / 2 ^ (8 * (l.length - 1 - j)) % 2 ^ 8 = l[j].toNat := by
  induction l generalizing j with
  | nil => cases hj
  | cons b bs ih =>
    have hlt := bigEndian_lt bs
    cases j with
    | zero =>
      have hb : b.toNat < 2 ^ 8 := b.isLt
      rw [bigEndian, List.length_cons, Nat.add_sub_cancel, Nat.sub_zero, Nat.mul_comm,
        Nat.mul_add_div (by positivity), Nat.div_eq_of_lt hlt, Nat.add_zero, Nat.mod_eq_of_lt hb]
      rfl
    | succ j =>
      have hj' : j < bs.length := by simpa using hj
      have he : 8 * bs.length = 8 * (bs.length - 1 - j) + 8 * (j + 1) := by omega
      have hsub : (b :: bs).length - 1 - (j + 1) = bs.length - 1 - j := by simp; omega
      have hhead : b.toNat * 2 ^ (8 * bs.length) =
          2 ^ (8 * (bs.length - 1 - j)) * (2 ^ 8 * (b.toNat * 2 ^ (8 * j))) := by
        rw [he, Nat.pow_add, Nat.mul_succ, Nat.pow_add]
        ring
      rw [hsub, List.getElem_cons_succ, ← ih hj', bigEndian, hhead, Nat.mul_add_div (by positivity),
        Nat.mul_add_mod]

/-- Bytes of a value by its number. -/
theorem byteAt_toNat (v : Quad) {j : Nat} (hj : j < 16) :
    (byteAt v j).toNat = v.toNat / 2 ^ (120 - 8 * j) % 2 ^ 8 := by
  rw [byteAt, if_pos hj, BitVec.extractLsb'_toNat, Nat.shiftRight_eq_div_pow]

theorem length_drawBytes (n : Nat) (il : BitVec 5) : (drawBytes n il).length = il.toNat := by
  simp [drawBytes]

theorem drawnIv_toNat (n : Nat) {il : BitVec 5} (h : il.toNat ≤ 16) :
    (drawnIv n il).toNat = bigEndian (drawBytes n il) * 2 ^ (128 - 8 * il.toNat) := by
  have hlt := bigEndian_lt (drawBytes n il)
  rw [length_drawBytes] at hlt
  rw [drawnIv, BitVec.toNat_ofNat, Nat.mod_eq_of_lt]
  calc _ < 2 ^ (8 * il.toNat) * 2 ^ (128 - 8 * il.toNat) := Nat.mul_lt_mul_of_pos_right hlt (by positivity)
    _ = 2 ^ 128 := by rw [← Nat.pow_add]; congr 1; omega

/-- Byte `j` of a drawn IV is drawn byte `j`, and 0 above the IV length (40_init R103). -/
theorem byteAt_drawnIv (n : Nat) {il : BitVec 5} (h : il.toNat ≤ 16) {j : Nat} (hj : j < 16) :
    byteAt (drawnIv n il) j = if j < il.toNat then Config.randomByte n j else 0 := by
  apply BitVec.eq_of_toNat_eq
  rw [byteAt_toNat _ hj, drawnIv_toNat n h]
  split
  · rename_i hlt
    have hlt' : j < (drawBytes n il).length := by rwa [length_drawBytes]
    have he : 120 - 8 * j = 8 * (il.toNat - 1 - j) + (128 - 8 * il.toNat) := by omega
    rw [he, Nat.pow_add, Nat.mul_div_mul_right _ _ (by positivity), ← length_drawBytes n, bigEndian_byte _ hlt']
    simp [drawBytes]
  · rename_i hge
    have he : 128 - 8 * il.toNat = 8 * (j - il.toNat) + 8 + (120 - 8 * j) := by omega
    rw [he, Nat.pow_add, ← Nat.mul_assoc, Nat.mul_div_cancel _ (by positivity), Nat.pow_add, ← Nat.mul_assoc,
      Nat.mul_mod_left]
    rfl

/-- A drawn IV of 8 bytes is its high half with zeros below. -/
theorem drawnIv_eight (n : Nat) : (drawnIv n 8).extractLsb' 64 64 ++ (0 : BitVec 64) = drawnIv n 8 := by
  have hlow : (drawnIv n 8).extractLsb' 0 64 = 0 := by
    apply BitVec.eq_of_toNat_eq
    rw [BitVec.extractLsb'_toNat, drawnIv_toNat n (by decide)]
    exact Nat.mul_mod_left _ _
  rw [← hlow]
  exact (BitVec.extractLsb'_append_extractLsb'_eq_extractLsb' (start₁ := 0) (len₁ := 64) rfl).trans
    BitVec.extractLsb'_eq_self

/-! ## The statements about initialization -/

/-- Settles O36: the three outcomes of the checks, and LoadIv at each width. -/
theorem initIvResult : Obligations.InitIvResult := by
  intro s kl il
  by_cases hk : kl.toNat = 16
  · rw [if_neg (not_not_intro hk)]
    by_cases h16 : il.toNat = 16
    · obtain rfl : il = 16 := BitVec.eq_of_toNat_eq h16
      rw [exec_initIv_of_ok s ((initCheck_none_iff kl 16).mpr ⟨hk, .inr rfl⟩), Device.loadIv_sixteen]
      rfl
    · rw [if_neg h16]
      by_cases h8 : il.toNat = 8
      · obtain rfl : il = 8 := BitVec.eq_of_toNat_eq h8
        rw [exec_initIv_of_ok s ((initCheck_none_iff kl 8).mpr ⟨hk, .inl rfl⟩), Device.loadIv_eight]
        rfl
      · rw [if_neg h8, exec_initIv_of_fail s (initCheck_of_ivLen hk h8 h16)]
        rfl
  · rw [if_pos hk, exec_initIv_of_fail s (initCheck_of_keyLen hk il)]
    rfl

/-- Settles O37: a failed check draws nothing, and the IV loaded is the drawn one at either width. -/
theorem initRandResult : Obligations.InitRandResult := by
  intro s kl il
  refine ⟨fun hk => exec_initRand_of_fail s (initCheck_of_keyLen hk il),
    fun hk h8 h16 => exec_initRand_of_fail s (initCheck_of_ivLen hk h8 h16), fun hk hil => ?_⟩
  refine ⟨drawnIv s.free il, ?_, fun j hj => byteAt_drawnIv _ (by omega) hj⟩
  rw [exec_initRand_of_ok s ((initCheck_none_iff kl il).mpr ⟨hk, hil⟩)]
  rcases hil with h8 | h16
  · obtain rfl : il = 8 := BitVec.eq_of_toNat_eq h8
    rw [Device.loadIv_eight, drawnIv_eight]
    rfl
  · obtain rfl : il = 16 := BitVec.eq_of_toNat_eq h16
    rw [Device.loadIv_sixteen]
    rfl

/-- Settles O38: MODE is checked before the length, and LoadIv keeps KEY. -/
theorem setIvResult : Obligations.SetIvResult := by
  intro s il
  change Host.Outcome.next (s.withDev (s.dev.setIv il)) = .next (s.withDev _)
  unfold Device.setIv
  by_cases hm : s.dev.mode = .none
  · rw [if_pos hm, if_pos hm]
  rw [if_neg hm, if_neg hm]
  by_cases h16 : il.toNat = 16
  · obtain rfl : il = 16 := BitVec.eq_of_toNat_eq h16
    rfl
  by_cases h8 : il.toNat = 8
  · obtain rfl : il = 8 := BitVec.eq_of_toNat_eq h8
    rfl
  have hil : ivLenLegal il = false := by
    rw [← Bool.not_eq_true, ivLenLegal_iff]
    exact not_or.mpr ⟨h8, h16⟩
  rw [hil, if_neg h16, if_neg h8]
  rfl

/-! ## PROCESS without a byte -/

theorem exec_process (s : State) : exec .process s = .next s.processStep := rfl

/-- The exact sums of 42_process R131. -/
theorem Device.rangeWraps_iff (d : Device) : d.rangeWraps = true ↔
    d.curSrc.toNat + d.curLen.toNat > 2 ^ 32 ∨ d.curDst.toNat + d.curLen.toNat > 2 ^ 32 := by
  simp only [Device.rangeWraps, Bool.or_eq_true, decide_eq_true_eq]

theorem exec_process_of_unchecked {s : State} (h : s.dev.procChecked = false) :
    exec .process s = .next (s.withDev s.dev.processIssue) := by
  rw [exec_process, State.processStep, h]
  rfl

theorem exec_process_of_done {s : State} (hp : s.dev.procChecked = true)
    (hi : s.dev.curLen.toNat ≤ s.dev.curI.toNat) : exec .process s = .next (s.finish .ok) := by
  rw [exec_process, State.processStep, hp, if_neg (by decide), if_neg (Nat.not_lt.mpr hi)]

/-! ## The statements about completion and PROCESS without a byte -/

/-- Settles O34: ERRSEEN is set exactly by an error. -/
theorem completionWrites : Obligations.CompletionWrites := by
  intro d c
  rw [Device.finish]
  by_cases hc : c = .ok <;> simp [hc]

/-- Settles O35: the meaning of the illegal word is that completion. -/
theorem illegalCommandCompletes : Obligations.IllegalCommandCompletes := by
  intro s w
  rw [exec_illegalCmd, State.finish, completionWrites]
  rfl

/-- Settles O44: MODE is checked before the range. -/
theorem processIssueChecks : Obligations.ProcessIssueChecks := by
  intro s h
  rw [exec_process_of_unchecked h]
  simp only [← Device.rangeWraps_iff]
  rfl

/-- Settles O49: with no byte left the step is the completion. -/
theorem processCompletes : Obligations.ProcessCompletes := by
  intro s hp hi
  exact exec_process_of_done hp hi

/-- Settles O50: no sum with length 0 passes 2^32, so the checks succeed and the next step completes. -/
theorem emptyProcessChangesNothing : Obligations.EmptyProcessChangesNothing := by
  intro s hp hm hlen
  have hwrap : ¬ s.dev.rangeWraps = true := by
    have hsrc := s.dev.curSrc.isLt
    have hdst := s.dev.curDst.isLt
    have hlen0 : s.dev.curLen.toNat = 0 := by rw [hlen]; rfl
    rw [Device.rangeWraps_iff, hlen0]
    omega
  have hissue : s.dev.processIssue = { s.dev with curI := 0, procChecked := true } := by
    rw [Device.processIssue, if_neg hm, if_neg hwrap]
  have hdone := exec_process_of_done (s := s.withDev { s.dev with curI := 0, procChecked := true }) rfl
    (by simp [hlen])
  simp only [execTimes, exec_process_of_unchecked hp, hissue, hdone]
  exact ⟨_, rfl, rfl, rfl, ⟨rfl, rfl, rfl, rfl, rfl, rfl⟩, rfl, rfl⟩

/-- Settles O55: the three names have one word and one meaning. -/
theorem aliasesAreProcess : Obligations.AliasesAreProcess :=
  ⟨rfl, rfl, fun _ => ⟨rfl, rfl⟩⟩

end Sys2Proof.Machine
end

section
/-! SUPPORT. The byte step of PROCESS (42_process R132, R133, R141): when its block entry overflows, what a bus error
leaves, and what an answered step stores and commits, raced or not; then the statements about it. -/

namespace Sys2Proof.Machine

/-! ## Block entry -/

/-- The sub-counter is used up in W8 alone, from 2^64 on, and under FAULT (41_counter R123). -/
theorem Device.ctrOverflows_iff (d : Device) :
    d.ctrOverflows = true ↔ d.mode = .w8 ∧ 2 ^ 64 ≤ d.blkcnt.toNat ∧ d.policy = .fault := by
  simp only [Device.ctrOverflows, Bool.and_eq_true, decide_eq_true_eq, and_assoc]

theorem Device.nextKeystream_of_overflow {d : Device} (h0 : d.off = 16) (hm : d.mode ≠ .none)
    (hc : d.ctrOverflows = true) : d.nextKeystream = .error .ctrOverflow := by
  rw [Device.nextKeystream, if_pos h0, Device.enterBlock, if_neg hm, if_pos hc]

theorem State.byteStep_of_noKeystream {s : State} {c : ErrCode} (h : s.dev.nextKeystream = .error c) :
    s.byteStep = s.finish c := by
  rw [State.byteStep, h]

theorem State.byteStep_of_keystream {s : State} {k : Keystream} (h : s.dev.nextKeystream = .ok k) :
    s.byteStep = s.byteAccess k := by
  rw [State.byteStep, h]

theorem Device.keystream_of_due {d : Device} (h : d.byteDue) (hc : d.off = 16 → d.ctrOverflows = false) :
    ∃ k, d.nextKeystream = .ok k :=
  (Device.nextKeystream_of_due h hc).elim (fun e => ⟨_, e.2⟩) (fun e => ⟨_, e.2⟩)

/-! ## Bus errors -/

/-- An access fails where MemAdmit rejects it or the platform's next answer is an error (42_process R141). -/
theorem State.accessFails_iff (s : State) (a : Word) :
    s.accessFails a = true ↔ s.admits a = false ∨ s.busAnswers.head? = some true := by
  rw [State.accessFails, Bool.or_eq_true, Bool.not_eq_true']
  cases s.busAnswers <;> simp

theorem State.byteAccess_of_readError {s : State} (h : s.accessFails s.dev.srcAddr = true) (k : Keystream) :
    s.byteAccess k = s.takeAnswer.bumpFree.finish .busError := by
  rw [State.byteAccess, if_pos h]

theorem State.byteAccess_of_writeError {s : State} (hr : s.accessFails s.dev.srcAddr = false)
    (hw : s.takeAnswer.accessFails s.dev.dstAddr = true) (k : Keystream) :
    s.byteAccess k = (s.takeAnswer.takeAnswer.engineSet s.dev.dstAddr
      (Config.writeErrorByte s.free)).bumpFree.finish .busError := by
  rw [State.byteAccess, if_neg (by simp [hr]), State.byteWrite]
  exact if_pos hw

/-! ## A byte step that is answered -/

/-- PROCESS under any of its names is the step of PROCESS (30_encoding R84). -/
theorem exec_of_isProcess {i : Instr} (hi : i.isProcess) (s : State) : exec i s = .next s.processStep := by
  rcases hi with rfl | rfl | rfl <;> rfl

/-- The state after a byte step that is answered: a store and a commit (42_process R132). -/
def State.byteStored (s : State) (k : Keystream) : State :=
  (s.takeAnswer.takeAnswer.engineStore s.dev.dstAddr
    (s.engineByte s.dev.srcAddr ^^^ k.byte)).bumpFree.withDev (s.dev.commitByte k)

theorem exec_of_admitted {i : Instr} (hi : i.isProcess) {s : State} {k : Keystream} (hdue : s.dev.byteDue)
    (hk : s.dev.nextKeystream = .ok k) (hs : s.admits s.dev.srcAddr = true)
    (hd : s.admits s.dev.dstAddr = true) (hb : s.noBusErrors) : exec i s = .next (s.byteStored k) := by
  rw [exec_of_isProcess hi, State.processStep_of_due hdue, State.byteStep_of_admitted hk hs hd hb]
  rfl

section
variable (s : State) (k : Keystream)

/-- It changes no byte but the destination byte. -/
theorem State.byteStored_read_other {a : Nat} (h : a ≠ s.dev.dstAddr.toNat) :
    (s.byteStored k).mem.read a = s.mem.read a :=
  State.engineStore_read_other s.takeAnswer.takeAnswer s.dev.dstAddr _ h

/-- It changes no other device and no field of the host. -/
theorem State.byteStored_frame : (s.byteStored k).peers = s.peers ∧ (s.byteStored k).hostQ = s.hostQ ∧
    (s.byteStored k).resp = s.resp ∧ (s.byteStored k).hostFault = s.hostFault := by
  obtain ⟨-, hpeers, -, -, hhostQ, -, hresp, hfault, -⟩ := State.engineStore_frame s.takeAnswer.takeAnswer
    s.dev.dstAddr (s.engineByte s.dev.srcAddr ^^^ k.byte)
  exact ⟨hpeers, hhostQ, hresp, hfault⟩

/-- The platform's answers to come are what is left of them. -/
theorem State.byteStored_bus : (s.byteStored k).memAdmit = s.memAdmit ∧
    (s.byteStored k).busAnswers = s.busAnswers.tail.tail := by
  obtain ⟨-, -, hadmit, hbus, -⟩ := State.engineStore_frame s.takeAnswer.takeAnswer
    s.dev.dstAddr (s.engineByte s.dev.srcAddr ^^^ k.byte)
  exact ⟨hadmit, hbus⟩

variable {s}

theorem State.byteStored_of_unraced (hu : s.unraced) : s.byteStored k =
    (s.takeAnswer.takeAnswer.engineSet s.dev.dstAddr
      (s.mem.read s.dev.srcAddr.toNat ^^^ k.byte)).bumpFree.withDev (s.dev.commitByte k) := by
  have hu' : s.takeAnswer.takeAnswer.unraced := hu
  rw [State.byteStored, State.engineStore_of_unraced hu', State.engineByte_of_unraced hu]

/-- Unraced, the destination byte is the source byte XOR the keystream byte. -/
theorem State.byteStored_read_same (hu : s.unraced) : (s.byteStored k).mem.read s.dev.dstAddr.toNat =
    s.mem.read s.dev.srcAddr.toNat ^^^ k.byte := by
  rw [State.byteStored_of_unraced k hu]
  exact Memory.read_write_same ..

/-- And no race begins. -/
theorem State.byteStored_unraced (hu : s.unraced) : (s.byteStored k).unraced := by
  have hu' : s.takeAnswer.takeAnswer.unraced := hu
  rw [State.byteStored_of_unraced k hu]
  exact State.engineSet_unraced hu' _ _

end

/-! ## Races -/

/-- A value the engine may see beside the memory's is one that its command's window records (20_memory R63). -/
theorem State.mem_overwritten {s : State} {a : Word} {b : Byte} (h : b ∈ s.overwritten a) :
    ∃ w, s.ownWindow = some w ∧ (a.toNat, b) ∈ w.wrote := by
  unfold State.overwritten at h
  split at h
  · cases h
  · rename_i w hw
    obtain ⟨c, hc, rfl⟩ := List.mem_map.mp h
    obtain ⟨hmem, ha⟩ := List.mem_filter.mp hc
    exact ⟨w, hw, by rw [← (beq_iff_eq.mp ha)]; exact hmem⟩

/-- The engine reads the memory's byte or one that its window records. -/
theorem State.engineByte_cases (s : State) (a : Word) :
    s.engineByte a = s.mem.read a.toNat ∨ ∃ w, s.ownWindow = some w ∧ (a.toNat, s.engineByte a) ∈ w.wrote :=
  (pick_mem _ _ _).imp_right State.mem_overwritten

/-- The destination byte ends as the engine's write, or, where its window records a host write, as it was. -/
theorem State.byteStored_read_raced (s : State) (k : Keystream) :
    (s.byteStored k).mem.read s.dev.dstAddr.toNat = s.engineByte s.dev.srcAddr ^^^ k.byte ∨
    ((s.byteStored k).mem.read s.dev.dstAddr.toNat = s.mem.read s.dev.dstAddr.toNat ∧
      ∃ w y, s.ownWindow = some w ∧ (s.dev.dstAddr.toNat, y) ∈ w.wrote) := by
  refine (State.engineStore_read_same s.takeAnswer.takeAnswer s.dev.dstAddr _).imp_right fun ⟨hr, ho⟩ => ⟨hr, ?_⟩
  obtain ⟨y, hy⟩ := List.exists_mem_of_ne_nil _ ho
  obtain ⟨w, hw, hmem⟩ := State.mem_overwritten hy
  exact ⟨w, y, hw, hmem⟩

/-! ## The count of a sample -/

section
variable {d : Device} {T : Nat} {k : Keystream}

/-- At a multiple of 16 a block is due: OFF = 16 and BLKCNT is the index of the next block. -/
theorem Device.SampleAt.off_eq_iff (h : d.SampleAt T) : d.off = 16 ↔ T % 16 = 0 := by
  rw [← Fin.val_inj, h.off]
  change _ = 16 ↔ _
  split <;> omega

/-- The keystream byte of the next byte step is that of sample position `T` (42_process R139). -/
theorem Device.SampleAt.byte_eq (h : d.SampleAt T) (hk : d.nextKeystream = .ok k) : k.byte = d.streamByte T := by
  rw [Keystream.byte, Device.streamByte]
  rcases Device.nextKeystream_ok hk with ⟨h16, rfl⟩ | ⟨h16, -, rfl⟩
  · have hT : T % 16 ≠ 0 := mt h.off_eq_iff.mpr h16
    have hoff : d.off.val = T % 16 := by rw [h.off]; split <;> omega
    rw [h.ks hT, hoff]
  · have hT : T % 16 = 0 := h.off_eq_iff.mp h16
    have hblk : (T + 15) / 16 = T / 16 := by omega
    rw [h.blkcnt, hblk, hT]
    rfl

/-- A committed byte takes the sample from `T` bytes to `T + 1` (42_process R137). -/
theorem Device.SampleAt.commitByte (h : d.SampleAt T) (hk : d.nextKeystream = .ok k) :
    (d.commitByte k).SampleAt (T + 1) := by
  rcases Device.nextKeystream_ok hk with ⟨h16, rfl⟩ | ⟨h16, -, rfl⟩
  · have hT : T % 16 ≠ 0 := mt h.off_eq_iff.mpr h16
    have hblk : (T + 1 + 15) / 16 = (T + 15) / 16 := by omega
    have hoff : d.off.val = T % 16 := by rw [h.off]; split <;> omega
    refine ⟨by rw [hblk]; exact h.blkcnt, ?_, fun hT' => ?_⟩
    · rw [Device.commitByte_off, offset_add_one_val h16, hoff, if_neg (Nat.succ_ne_zero T), Nat.add_sub_cancel]
    · have hidx : (T + 1) / 16 = T / 16 := by omega
      rw [hidx]
      exact h.ks hT
  · have hT : T % 16 = 0 := h.off_eq_iff.mp h16
    refine ⟨?_, ?_, fun _ => ?_⟩
    · have hblk : (T + 1 + 15) / 16 = (T + 15) / 16 + 1 := by omega
      rw [hblk, BitVec.ofNat_add, ← h.blkcnt]
      rfl
    · rw [if_neg (Nat.succ_ne_zero T), Nat.add_sub_cancel, hT]
      rfl
    · have hidx : (T + 1) / 16 = (T + 15) / 16 := by omega
      rw [hidx, ← h.blkcnt]
      rfl

end

/-! ## The statements -/

/-- Settles O46: a W8 block entry overflows under FAULT from 2^64 on, and every other block entry has room. -/
theorem overflowFails : Obligations.OverflowFails := by
  intro s hdue h0
  have hm := hdue.2.1
  refine ⟨fun h8 hblk hpol => ?_, fun h => ?_⟩
  · have hc := s.dev.ctrOverflows_iff.mpr ⟨h8, hblk, hpol⟩
    rw [exec_process_of_due hdue, State.byteStep_of_noKeystream (Device.nextKeystream_of_overflow h0 hm hc)]
    rfl
  · have hc : s.dev.ctrOverflows = false := by
      rw [← Bool.not_eq_true, Device.ctrOverflows_iff]
      rintro ⟨h8, hblk, hpol⟩
      rcases h with h | h | h
      · exact absurd (h.symm.trans h8) (by decide)
      · omega
      · exact absurd (h.symm.trans hpol) (by decide)
    exact ((Device.nextKeystream_of_due hdue fun _ => hc).resolve_left fun h' => h'.1 h0).2

/-- Settles O47: the step with a keystream ends at its first failed access. -/
theorem busErrorEndsCommand : Obligations.BusErrorEndsCommand := by
  intro s hdue hc
  obtain ⟨k, hk⟩ := Device.keystream_of_due hdue hc
  rw [exec_process_of_due hdue, State.byteStep_of_keystream hk]
  refine ⟨fun h => ?_, fun hsrc hhead h => ?_⟩
  · rw [State.byteAccess_of_readError ((s.accessFails_iff _).mpr h)]
    exact ⟨_, rfl, rfl, rfl⟩
  · have hr : s.accessFails s.dev.srcAddr = false := by
      rw [← Bool.not_eq_true, State.accessFails_iff, hsrc]
      exact not_or.mpr ⟨by decide, hhead⟩
    rw [State.byteAccess_of_writeError hr ((s.takeAnswer.accessFails_iff _).mpr h)]
    exact ⟨_, rfl, rfl, fun a ha => Memory.read_write_other _ _ ha⟩

/-- Settles O45: an answered, unraced byte step at a block entry and within a block. -/
theorem byteStepResult : Obligations.ByteStepResult := by
  intro i s hi hdue hc hsrc hdst hb hu
  obtain ⟨k, hk⟩ := Device.keystream_of_due hdue hc
  refine ⟨s.byteStored k, exec_of_admitted hi hdue hk hsrc hdst hb, fun h16 => ?_, fun h16 => ?_,
    fun a ha => s.byteStored_read_other k ha, s.byteStored_frame k⟩
  · rcases Device.nextKeystream_ok hk with ⟨h, -⟩ | ⟨-, -, rfl⟩
    · exact absurd h16 h
    · exact ⟨rfl, State.byteStored_read_same _ hu⟩
  · rcases Device.nextKeystream_ok hk with ⟨-, rfl⟩ | ⟨h, -⟩
    · exact ⟨rfl, State.byteStored_read_same _ hu⟩
    · exact absurd h h16

/-- Settles O59: a read and a store in a race pick among what the command's window records. -/
theorem racedByteIsEither : Obligations.RacedByteIsEither := by
  intro s hdue hc hsrc hdst hb
  obtain ⟨k, hk⟩ := Device.keystream_of_due hdue hc
  exact ⟨s.byteStored k, s.engineByte s.dev.srcAddr, k, exec_of_admitted (.inl rfl) hdue hk hsrc hdst hb, hk,
    s.engineByte_cases _, s.byteStored_read_raced k, rfl, fun a ha => s.byteStored_read_other k ha,
    s.byteStored_frame k⟩

/-- Settles O51: a byte step that does not complete its command has committed its byte. -/
theorem byteStepCountsSample : Obligations.ByteStepCountsSample := by
  intro s t T hdue hT h hp
  obtain rfl := Host.Outcome.next.inj ((exec_process_of_due hdue).symm.trans h)
  rcases s.byteStep_cases with ⟨c, -, e⟩ | ⟨k, -, -, e⟩ | ⟨k, -, -, -, e⟩ | ⟨k, hk, -, -, e⟩ <;> rw [e] at hp ⊢
  · cases hp
  · cases hp
  · cases hp
  · exact hT.commitByte hk

end Sys2Proof.Machine
end

section
/-! SUPPORT. A PROCESS that nothing disturbs (42_process section 2): the state before each of its bytes, one byte
step from one such state to the next, and by induction over the bytes left the whole run; then the closed form
(R139) and its inverse (R140). -/

namespace Sys2Proof.Machine

/-! ## Addresses -/

section
variable {d : Device}

theorem setWidth_eq_ofNat_toNat {v w : Nat} (x : BitVec v) : x.setWidth w = BitVec.ofNat w x.toNat :=
  BitVec.eq_of_toNat_eq (by simp)

/-- The bytes still to do lie within the 32-bit space, so their addresses are exact sums (42_process R131). -/
theorem Device.srcAddr_toNat (hw : d.rangeWraps = false) (hlt : d.curI.toNat < d.curLen.toNat) :
    d.srcAddr.toNat = d.curSrc.toNat + d.curI.toNat := by
  have hr := mt d.rangeWraps_iff.mpr (by simp [hw])
  rw [Device.srcAddr, BitVec.toNat_add, BitVec.toNat_setWidth]
  omega

theorem Device.dstAddr_toNat (hw : d.rangeWraps = false) (hlt : d.curI.toNat < d.curLen.toNat) :
    d.dstAddr.toNat = d.curDst.toNat + d.curI.toNat := by
  have hr := mt d.rangeWraps_iff.mpr (by simp [hw])
  rw [Device.dstAddr, BitVec.toNat_add, BitVec.toNat_setWidth]
  omega

end

/-! ## A run of PROCESS -/

/-- The two buffers of the latched command are the same or disjoint (42_process R139). -/
def Device.BuffersApart (d : Device) : Prop :=
  d.curDst = d.curSrc ∨ d.curSrc.toNat + d.curLen.toNat ≤ d.curDst.toNat ∨
    d.curDst.toNat + d.curLen.toNat ≤ d.curSrc.toNat

/-- A PROCESS past its issue checks has `m` bytes left, the next at sample position `T`, and nothing disturbs it:
its buffers are apart, admitted and not raced, and its blocks are within the W8 limit. -/
structure State.Streams (s : State) (T m : Nat) : Prop where
  checked : s.dev.procChecked = true
  mode : s.dev.mode ≠ .none
  left : s.dev.curI.toNat + m = s.dev.curLen.toNat
  noWrap : s.dev.rangeWraps = false
  sample : s.dev.SampleAt T
  limit : s.dev.mode = .w8 → s.dev.policy = .fault → (T + m + 15) / 16 ≤ 2 ^ 64
  apart : s.dev.BuffersApart
  srcAdmitted : s.admitsRange s.dev.curSrc s.dev.curLen.toNat
  dstAdmitted : s.admitsRange s.dev.curDst s.dev.curLen.toNat
  noErrors : s.noBusErrors
  unraced : s.unraced

/-- The run of those `m` bytes has ended in `t`: the command is complete, its bytes are the closed form, and
nothing disturbs the next command either. -/
structure State.Streamed (s : State) (T m : Nat) (t : State) : Prop where
  err : t.dev.err = .ok
  busy : t.dev.busy = false
  base : t.dev.base = s.dev.base
  sample : t.dev.SampleAt (T + m)
  out : ∀ j < m, t.mem.read (s.dev.curDst.toNat + s.dev.curI.toNat + j) =
    s.mem.read (s.dev.curSrc.toNat + s.dev.curI.toNat + j) ^^^ s.dev.streamByte (T + j)
  frame : ∀ a, (a < s.dev.curDst.toNat + s.dev.curI.toNat ∨ s.dev.curDst.toNat + s.dev.curI.toNat + m ≤ a) →
    t.mem.read a = s.mem.read a
  memAdmit : t.memAdmit = s.memAdmit
  noErrors : t.noBusErrors
  unraced : t.unraced

section
variable {s : State} {T m : Nat}

theorem State.Streams.due (h : s.Streams T (m + 1)) : s.dev.byteDue :=
  ⟨h.checked, h.mode, by have := h.left; omega⟩

/-- Within the W8 limit no block entry overflows. -/
theorem State.Streams.noOverflow (h : s.Streams T (m + 1)) (h16 : s.dev.off = 16) :
    s.dev.ctrOverflows = false := by
  rw [← Bool.not_eq_true, Device.ctrOverflows_iff]
  rintro ⟨h8, hblk, hpol⟩
  have hT := h.sample.off_eq_iff.mp h16
  have hlim := h.limit h8 hpol
  rw [h.sample.blkcnt, BitVec.toNat_ofNat, Nat.mod_eq_of_lt (by omega)] at hblk
  omega

theorem State.Streams.srcAdmits (h : s.Streams T (m + 1)) : s.admits s.dev.srcAddr = true := by
  rw [Device.srcAddr, setWidth_eq_ofNat_toNat]
  exact h.srcAdmitted _ h.due.2.2

theorem State.Streams.dstAdmits (h : s.Streams T (m + 1)) : s.admits s.dev.dstAddr = true := by
  rw [Device.dstAddr, setWidth_eq_ofNat_toNat]
  exact h.dstAdmitted _ h.due.2.2

/-- One byte step of the run. -/
theorem State.Streams.step (h : s.Streams T (m + 1)) {i : Instr} (hi : i.isProcess) :
    ∃ k, s.dev.nextKeystream = .ok k ∧ exec i s = .next (s.byteStored k) := by
  obtain ⟨k, hk⟩ := Device.keystream_of_due h.due h.noOverflow
  exact ⟨k, hk, exec_of_admitted hi h.due hk h.srcAdmits h.dstAdmits h.noErrors⟩

/-- It leaves the run with one byte less. -/
theorem State.Streams.next (h : s.Streams T (m + 1)) {k : Keystream} (hk : s.dev.nextKeystream = .ok k) :
    (s.byteStored k).Streams (T + 1) m := by
  obtain ⟨hadmit, hbus⟩ := s.byteStored_bus k
  have hi := Device.curI_add_one_toNat h.due.2.2
  have admits : ∀ {base n}, s.admitsRange base n → (s.byteStored k).admitsRange base n := by
    intro base n hr i hin
    rw [State.admits, hadmit]
    exact hr i hin
  exact {
    checked := h.checked
    mode := h.mode
    left := by
      have := h.left
      change (s.dev.curI + 1).toNat + m = s.dev.curLen.toNat
      omega
    noWrap := h.noWrap
    sample := h.sample.commitByte hk
    limit := fun h8 hpol => by
      have := h.limit h8 hpol
      omega
    apart := h.apart
    srcAdmitted := admits h.srcAdmitted
    dstAdmitted := admits h.dstAdmitted
    noErrors := fun b hb => h.noErrors b (List.mem_of_mem_tail (List.mem_of_mem_tail (hbus ▸ hb)))
    unraced := State.byteStored_unraced k h.unraced }

/-- The bytes of the run read after its next byte are not written by that byte. -/
theorem State.Streams.laterSrc_ne (h : s.Streams T (m + 1)) {j : Nat} (hj : j < m) :
    s.dev.curSrc.toNat + (s.dev.curI.toNat + 1) + j ≠ s.dev.curDst.toNat + s.dev.curI.toNat := by
  have hleft := h.left
  rcases h.apart with he | hd | hd
  · rw [he]; omega
  · omega
  · omega

/-- The run of the later bytes ends the run of all. -/
theorem State.Streams.streamed_of_next (h : s.Streams T (m + 1)) {k : Keystream} {t : State}
    (hk : s.dev.nextKeystream = .ok k) (ht : (s.byteStored k).Streamed (T + 1) m t) : s.Streamed T (m + 1) t := by
  have hlt := h.due.2.2
  have hdst := Device.dstAddr_toNat h.noWrap hlt
  have hsrc := Device.srcAddr_toNat h.noWrap hlt
  have hi : (s.byteStored k).dev.curI.toNat = s.dev.curI.toNat + 1 := Device.curI_add_one_toNat hlt
  have hother : ∀ {a}, a ≠ s.dev.curDst.toNat + s.dev.curI.toNat →
      (s.byteStored k).mem.read a = s.mem.read a := fun ha => s.byteStored_read_other k (hdst ▸ ha)
  have hframe : ∀ a, (a < s.dev.curDst.toNat + (s.dev.curI.toNat + 1) ∨
      s.dev.curDst.toNat + (s.dev.curI.toNat + 1) + m ≤ a) → t.mem.read a = (s.byteStored k).mem.read a := by
    rw [← hi]; exact ht.frame
  have hout : ∀ j < m, t.mem.read (s.dev.curDst.toNat + (s.dev.curI.toNat + 1) + j) =
      (s.byteStored k).mem.read (s.dev.curSrc.toNat + (s.dev.curI.toNat + 1) + j) ^^^
        s.dev.streamByte (T + 1 + j) := by
    rw [← hi]; exact ht.out
  exact {
    err := ht.err
    busy := ht.busy
    base := ht.base
    sample := by
      have := ht.sample
      rwa [Nat.add_right_comm, Nat.add_assoc] at this
    out := fun j hj => by
      cases j with
      | zero =>
        have hfirst := hframe (s.dev.curDst.toNat + s.dev.curI.toNat) (.inl (Nat.lt_succ_self _))
        rw [Nat.add_zero, Nat.add_zero, Nat.add_zero, hfirst, ← h.sample.byte_eq hk, ← hdst, ← hsrc]
        exact State.byteStored_read_same k h.unraced
      | succ j =>
        have hj' : j < m := Nat.lt_of_succ_lt_succ hj
        have haddr : ∀ x, x + s.dev.curI.toNat + (j + 1) = x + (s.dev.curI.toNat + 1) + j := by omega
        have hpos : T + (j + 1) = T + 1 + j := by omega
        rw [haddr, haddr, hpos, hout j hj', hother (h.laterSrc_ne hj')]
    frame := fun a ha => (hframe a (by omega)).trans (hother (by omega))
    memAdmit := ht.memAdmit.trans (s.byteStored_bus k).1
    noErrors := ht.noErrors
    unraced := ht.unraced }

end

theorem exec_of_done {i : Instr} (hi : i.isProcess) {s : State} (hp : s.dev.procChecked = true)
    (hlen : s.dev.curLen.toNat ≤ s.dev.curI.toNat) : exec i s = .next (s.finish .ok) := by
  rw [exec_of_isProcess hi, ← exec_process, exec_process_of_done hp hlen]

theorem execTimes_succ {i : Instr} {s t : State} (h : exec i s = .next t) (n : Nat) :
    execTimes i (n + 1) s = execTimes i n t := by
  rw [execTimes, h]

/-- A run with no byte left completes. -/
theorem State.Streams.streamed_zero {s : State} {T : Nat} (h : s.Streams T 0) : s.Streamed T 0 (s.finish .ok) where
  err := rfl
  busy := rfl
  base := rfl
  sample := ⟨h.sample.blkcnt, h.sample.off, h.sample.ks⟩
  out := fun _ hj => absurd hj (Nat.not_lt_zero _)
  frame := fun _ _ => rfl
  memAdmit := rfl
  noErrors := h.noErrors
  unraced := h.unraced

/-- The whole run, by induction over the bytes left: a step for each, and one to complete (log 11). -/
theorem State.Streams.run {i : Instr} (hi : i.isProcess) {m : Nat} : ∀ {s : State} {T : Nat}, s.Streams T m →
    ∃ t, execTimes i (m + 1) s = .next t ∧ s.Streamed T m t := by
  induction m with
  | zero =>
    intro s T h
    have hdone := exec_of_done hi h.checked (by have := h.left; omega)
    exact ⟨_, execTimes_succ hdone 0, h.streamed_zero⟩
  | succ m ih =>
    intro s T h
    obtain ⟨k, hk, hstep⟩ := h.step hi
    obtain ⟨t, ht, hs⟩ := ih (h.next hk)
    exact ⟨t, (execTimes_succ hstep _).trans ht, h.streamed_of_next hk hs⟩

/-- The device as it was, with its command's output as the source and `out` as the destination (42_process
R140). -/
def Device.reread (d : Device) (out : Word) : Device := { d with curSrc := d.curDst, curDst := out }

/-- The keystream of a position does not depend on the buffers. -/
@[simp] theorem Device.reread_streamByte (d : Device) (out : Word) (t : Nat) :
    (d.reread out).streamByte t = d.streamByte t := rfl

@[simp] theorem Device.reread_curSrc (d : Device) (out : Word) : (d.reread out).curSrc = d.curDst := rfl

@[simp] theorem Device.reread_curDst (d : Device) (out : Word) : (d.reread out).curDst = out := rfl

@[simp] theorem Device.reread_curI (d : Device) (out : Word) : (d.reread out).curI = d.curI := rfl

/-- After a run of a whole command, its output can be run again from the same cipher state. -/
theorem State.Streamed.again {s t : State} {T : Nat} {out : Word} (hs : s.Streams T s.dev.curLen.toNat)
    (ht : s.Streamed T s.dev.curLen.toNat t) (h32 : out.toNat + s.dev.curLen.toNat ≤ 2 ^ 32)
    (hapart : (s.dev.reread out).BuffersApart)
    (hadm : s.admitsRange out s.dev.curLen.toNat) :
    (t.withDev (s.dev.reread out)).Streams T s.dev.curLen.toNat := by
  have admits : ∀ {base n}, s.admitsRange base n →
      (t.withDev (s.dev.reread out)).admitsRange base n := by
    intro base n hr i hin
    rw [State.admits, State.withDev_memAdmit, ht.memAdmit]
    exact hr i hin
  exact {
    checked := hs.checked
    mode := hs.mode
    left := hs.left
    noWrap := by
      have hr := mt s.dev.rangeWraps_iff.mpr (by simp [hs.noWrap])
      rw [← Bool.not_eq_true, Device.rangeWraps_iff]
      change ¬ (s.dev.curDst.toNat + s.dev.curLen.toNat > 2 ^ 32 ∨ out.toNat + s.dev.curLen.toNat > 2 ^ 32)
      omega
    sample := ⟨hs.sample.blkcnt, hs.sample.off, hs.sample.ks⟩
    limit := hs.limit
    apart := hapart
    srcAdmitted := admits hs.dstAdmitted
    dstAdmitted := admits hadm
    noErrors := ht.noErrors
    unraced := by
      have hu := ht.unraced
      rw [State.unraced, State.ownWindow, ht.base] at hu
      exact hu }

/-! ## The statements -/

/-- Settles O53: the run of all the bytes of a command. -/
theorem processClosedForm : Obligations.ProcessClosedForm := by
  intro s T n hp hm hi hn hwrap hT hlim hapart hsrc hdst hb hu
  subst hn
  have hi0 : s.dev.curI.toNat = 0 := by rw [hi]; rfl
  have hs : s.Streams T s.dev.curLen.toNat :=
    ⟨hp, hm, by omega, hwrap, hT, hlim, hapart, hsrc, hdst, hb, hu⟩
  obtain ⟨t, ht, h⟩ := hs.run (.inl rfl)
  have hout := h.out
  have hframe := h.frame
  rw [hi0, Nat.add_zero, Nat.add_zero] at hout
  rw [hi0, Nat.add_zero] at hframe
  exact ⟨t, ht, h.err, h.busy, h.sample, hout, hframe⟩

/-- Settles O54: the second run XORs each byte with the same keystream byte again. -/
theorem decryptInvertsEncrypt : Obligations.DecryptInvertsEncrypt := by
  intro s t T n out hp hm hi hn hwrap h32 hT hlim hapart hapart' hsrc hdst hadm hb hu ht
  subst hn
  have hi0 : s.dev.curI.toNat = 0 := by rw [hi]; rfl
  have hs : s.Streams T s.dev.curLen.toNat :=
    ⟨hp, hm, by omega, hwrap, hT, hlim, hapart, hsrc, hdst, hb, hu⟩
  obtain ⟨t', ht', h⟩ := hs.run (.inr (.inl rfl))
  obtain rfl := Host.Outcome.next.inj (ht.symm.trans ht')
  obtain ⟨u, hrun, h'⟩ := (h.again hs h32 hapart' hadm).run (.inr (.inr rfl))
  have hout := h.out
  have hout' := h'.out
  have hframe := h'.frame
  simp only [State.withDev_dev, State.withDev_mem, Device.reread_streamByte, Device.reread_curSrc,
    Device.reread_curDst, Device.reread_curI, hi0, Nat.add_zero] at hout hout' hframe
  refine ⟨u, hrun, h'.err, fun j hj => ?_, hframe⟩
  rw [hout' j hj, hout j hj, BitVec.xor_assoc, BitVec.xor_self, BitVec.xor_zero]

end Sys2Proof.Machine
end

section
/-! SUPPORT. The first device's command runs to its end (70_reset_and_hazards R212): a measure of the steps it has
left, which every change by a command lowers. Then the statement of the bound. -/

namespace Sys2Proof.Machine

/-! ## Runs of the machine -/

theorem run_succ {s t : State} (h : step s = .next t) (k : Nat) :
    Host.Core.run core (k + 1) s = Host.Core.run core k t := by
  have hs : core.step s = .next t := h
  simp only [Host.Core.run, hs]

/-! ## The steps a command has left -/

theorem State.turn_of_firstBusy {s : State} (hs : s.sched = []) (hb : s.dev.busy = true) :
    s.turn = .engine 0 := by
  simp [State.turn, hs, List.findIdx?_cons, hb]

theorem decodeCmd_isCommand (w : Word) : (decodeCmd w).isCommand := by
  rcases decodeCmd_cases w with ⟨kl, il, -, h⟩ | ⟨kl, il, -, h⟩ | ⟨il, -, h⟩ | ⟨-, h⟩ | ⟨-, h⟩ | ⟨-, h⟩ <;> rw [h]
  · exact .inl (.inl ⟨kl, il, rfl⟩)
  · exact .inl (.inr (.inl ⟨kl, il, rfl⟩))
  · exact .inl (.inr (.inr ⟨il, rfl⟩))
  · exact .inr (.inl (.inl rfl))
  · exact .inr (.inr (.inl rfl))
  · exact .inr (.inr (.inr ⟨w, rfl⟩))

theorem leavesBlocks_not_command {i : Instr} (h : LeavesBlocks i) : ¬ i.isCommand := by
  cases h <;> simp [Instr.isCommand, Instr.isInit, Instr.isProcess]

/-- At most so many engine steps are left: before the issue checks those, the bytes and the completion; after them
the bytes left and the completion (log 11). -/
def Device.stepsLeft (d : Device) : Nat :=
  if d.procChecked then d.curLen.toNat - d.curI.toNat + 1 else d.curLen.toNat + 2

theorem Device.stepsLeft_pos (d : Device) : 0 < d.stepsLeft := by
  unfold Device.stepsLeft
  split <;> exact Nat.succ_pos _

theorem Device.stepsLeft_of_unchecked {d : Device} (h : d.procChecked = false) :
    d.stepsLeft = d.curLen.toNat + 2 :=
  if_neg (by simp [h])

theorem Device.stepsLeft_of_checked {d : Device} (h : d.procChecked = true) :
    d.stepsLeft = d.curLen.toNat - d.curI.toNat + 1 :=
  if_pos h

/-- A command's change completes it, or leaves fewer steps. -/
theorem Device.Change.progress {i : Instr} {d e : Device} (hc : Device.Change i d e) (hi : i.isCommand) :
    e.busy = false ∨ (e.busy = d.busy ∧ e.stepsLeft < d.stepsLeft) := by
  cases hc with
  | complete | loadKey | loadIv | advance => exact .inl rfl
  | issue _ hp =>
    refine .inr ⟨rfl, ?_⟩
    rw [Device.stepsLeft_of_unchecked hp, Device.stepsLeft_of_checked rfl]
    exact Nat.lt_succ_self _
  | commit k _ hp hlt =>
    refine .inr ⟨rfl, ?_⟩
    rw [Device.stepsLeft_of_checked hp, Device.stepsLeft_of_checked (d := d.commitByte k) hp,
      Device.commitByte_curI, Device.commitByte_curLen, Device.curI_add_one_toNat hlt]
    omega
  | same h => exact absurd hi (leavesBlocks_not_command h)
  | overrun w h | accept w h | writeStatus w h | writeSrc v h | writeDst v h | writeLen v h | writeKeyIn k v h
  | writeIvIn k v h =>
    simp [h, Instr.isCommand, Instr.isInit, Instr.isProcess] at hi

/-- With nothing scheduled, the step of a busy first device is a change by its command. -/
theorem step_of_firstBusy {s : State} (hs : s.sched = []) (hb : s.dev.busy = true) :
    ∃ t, step s = .next t ∧ t.sched = [] ∧ Device.Change (decodeCmd s.dev.curCmd) s.dev t.dev := by
  obtain ⟨u, hu⟩ := exec_answers (decodeCmd s.dev.curCmd) { s with sched := s.sched.tail }
  have he := exec_effect hu
  refine ⟨u, step_of_busyEngine (State.turn_of_firstBusy hs hb) rfl hb hu, ?_, he.dev⟩
  rw [he.sched]
  exact congrArg List.tail hs

/-- So it completes within the steps it has left. -/
theorem run_completes {n : Nat} : ∀ {s : State}, s.sched = [] → s.dev.busy = true → s.dev.stepsLeft ≤ n →
    ∃ k t, k ≤ n ∧ Host.Core.run core k s = .next t ∧ t.dev.busy = false := by
  induction n with
  | zero =>
    intro s _ _ hn
    exact absurd s.dev.stepsLeft_pos (by omega)
  | succ n ih =>
    intro s hs hb hn
    obtain ⟨t, ht, hts, hc⟩ := step_of_firstBusy hs hb
    rcases hc.progress (decodeCmd_isCommand _) with hdone | ⟨hbusy, hless⟩
    · exact ⟨1, t, by omega, run_succ ht 0, hdone⟩
    · obtain ⟨k, u, hk, hu, hdone⟩ := ih hts (hbusy.trans hb) (by omega)
      exact ⟨k + 1, u, by omega, (run_succ ht k).trans hu, hdone⟩

/-! ## The statement -/

/-- Settles O56: a command just accepted has CUR_LEN + 2 steps left at most. -/
theorem commandEndsInTime : Obligations.CommandEndsInTime := by
  intro s hs hb hp
  exact run_completes hs hb (Device.stepsLeft_of_unchecked hp).le

end Sys2Proof.Machine
end

section
/-! SUPPORT. What the host's own operations do (20_memory R62, R63, 30_encoding R83, R84): its accesses of memory, and
its writes of the window's registers in a host program; then the statements about them. -/

namespace Sys2Proof.Machine

/-! ## The host's accesses of memory -/

theorem RaceWindow.inDst_iff (w : RaceWindow) (a : Word) :
    w.inDst a = true ↔ w.dst.toNat ≤ a.toNat ∧ a.toNat < w.dst.toNat + w.len.toNat := by
  simp only [RaceWindow.inDst, inRange, Bool.and_eq_true, decide_eq_true_eq]

/-- What a host read may give beside the memory's byte comes from an open window with the address in its destination
range: its value before the command, or what the command has stored (20_memory R63). -/
theorem State.mem_staleBytes {s : State} {a : Word} {b : Byte} (h : b ∈ s.staleBytes a) :
    ∃ w ∈ s.races, w.inDst a = true ∧ (b = Memory.read w.before a.toNat ∨ (a.toNat, b) ∈ w.stored) := by
  rcases List.mem_append.mp h with h | h
  · obtain ⟨w, hw, rfl⟩ := List.mem_map.mp h
    obtain ⟨hmem, hin⟩ := List.mem_filter.mp hw
    exact ⟨w, hmem, hin, .inl rfl⟩
  · obtain ⟨w, hmem, hin, hst⟩ := State.mem_storedBytes h
    exact ⟨w, hmem, hin, .inr hst⟩

theorem step_of_memRead {s : State} {a : Word} {rest : List HostOp} (ht : s.turn = .host)
    (hq : s.hostQ = .memRead a :: rest) : step s = .next ((s.afterHostOp rest).hostRead a) := by
  apply step_of_done
  rw [State.fetch_of_host ht]
  simp only [fetchHost, hq]
  rfl

theorem step_of_memWrite {s : State} {a : Word} {v : Byte} {rest : List HostOp} (ht : s.turn = .host)
    (hq : s.hostQ = .memWrite a v :: rest) : step s = .next ((s.afterHostOp rest).hostWrite a v) := by
  apply step_of_done
  rw [State.fetch_of_host ht]
  simp only [fetchHost, hq]
  rfl

/-! ## The host's writes of the window -/

theorem State.turn_of_sched {s : State} {a : Agent} {rest : List Agent} (h : s.sched = a :: rest) : s.turn = a := by
  rw [State.turn, h]

theorem offset_sub_base (base : Word) (off : BitVec 8) : base + off.setWidth 32 - base = off.setWidth 32 := by
  rw [BitVec.add_comm, BitVec.add_sub_cancel]

/-- An offset of 8 bits lies in the window of the device (20_memory R52). -/
theorem Device.owns_offset (d : Device) (off : BitVec 8) : d.owns (d.base + off.setWidth 32) = true := by
  have hlt : off.toNat < 2 ^ 8 := off.isLt
  rw [Device.owns, offset_sub_base, decide_eq_true_eq, BitVec.toNat_setWidth]
  omega

theorem Device.descriptorOf_offset (d : Device) (wr : Bool) (off : BitVec 8) :
    d.descriptorOf wr (d.base + off.setWidth 32) = BitVec.ofBool wr ++ off := by
  rw [Device.descriptorOf, offset_sub_base, BitVec.setWidth_setWidth_of_le _ (by decide), BitVec.setWidth_eq]

theorem mapNext_focus_zero (o : Host.Outcome State Fault Refusal) : mapNext (fun t => t.focus 0) o = o := by
  cases o <;> rfl

/-- `WR` on the first device's window is the exec of the write its offset decodes to (30_encoding R83). -/
theorem step_of_wr {s : State} {off : BitVec 8} {imm : Word} {rest : List HostOp} (ht : s.turn = .host)
    (hq : s.hostQ = wr s.dev.base off imm :: rest) :
    step s = exec (decodeMmio (BitVec.ofBool true ++ off) imm) (s.afterHostOp rest) := by
  have hl : s.locate (s.dev.base + off.setWidth 32) = some 0 := State.locate_dev (s.dev.owns_offset off)
  rw [step_of_access ht hq hl (d := s.dev) rfl, Device.descriptorOf_offset, mapNext_focus_zero, State.focus_zero]

/-- The step of a scheduled host write of KEY_IN `k`. -/
theorem step_of_wrKeyIn {s : State} {k : BitVec 2} {off : BitVec 8} {imm : Word} {rest : List HostOp}
    {sched : List Agent} (hk : decodeMmio (BitVec.ofBool true ++ off) imm = .wrKeyIn k imm)
    (hs : s.sched = .host :: sched) (hq : s.hostQ = wr s.dev.base off imm :: rest) :
    step s = .next ((s.afterHostOp rest).ackWith { s.dev with keyIn := s.dev.keyIn.set k imm }) := by
  rw [step_of_wr (State.turn_of_sched hs) hq, hk, exec_wrKeyIn]
  rfl

/-- A key is its four words, the most significant first (20_memory R55). -/
theorem cat_wordAt (v : Quad) : (Words4.mk (wordAt v 0) (wordAt v 1) (wordAt v 2) (wordAt v 3)).cat = v := by
  have h2 : v.extractLsb' 96 32 ++ v.extractLsb' 64 32 = v.extractLsb' 64 64 :=
    BitVec.extractLsb'_append_extractLsb'_eq_extractLsb' rfl
  have h3 : v.extractLsb' 64 64 ++ v.extractLsb' 32 32 = v.extractLsb' 32 96 :=
    BitVec.extractLsb'_append_extractLsb'_eq_extractLsb' rfl
  have h4 : v.extractLsb' 32 96 ++ v.extractLsb' 0 32 = v.extractLsb' 0 128 :=
    BitVec.extractLsb'_append_extractLsb'_eq_extractLsb' rfl
  change v.extractLsb' 96 32 ++ v.extractLsb' 64 32 ++ v.extractLsb' 32 32 ++ v.extractLsb' 0 32 = v
  rw [h2]
  exact (congrArg (· ++ v.extractLsb' 0 32) h3).trans (h4.trans BitVec.extractLsb'_eq_self)

/-! ## The statements -/

/-- Settles O57: a read picks among what the windows admit, and a write is final or gives way to a stored byte. -/
theorem hostMemoryAccess : Obligations.HostMemoryAccess := by
  intro s a rest ht
  refine ⟨fun hq => ⟨_, _, step_of_memRead ht hq, rfl, rfl, rfl, rfl, ?_⟩,
    fun v hq => ⟨_, step_of_memWrite ht hq, rfl, rfl, ?_, fun b hb => State.hostWrite_read_other _ a v hb⟩⟩
  · refine (pick_mem _ _ _).imp_right fun h => ?_
    obtain ⟨w, hw, hin, hval⟩ := State.mem_staleBytes h
    obtain ⟨hlo, hhi⟩ := (w.inDst_iff a).mp hin
    exact ⟨w, hw, hlo, hhi, hval⟩
  · refine (State.hostWrite_read_same _ a v).imp_right fun h => ?_
    obtain ⟨w, hw, hin, hst⟩ := State.mem_storedBytes h
    obtain ⟨hlo, hhi⟩ := (w.inDst_iff a).mp hin
    exact ⟨w, hw, hlo, hhi, hst⟩

/-- Settles O60: the four writes set the four registers to the words of the key. -/
theorem loadKeyStagesKey : Obligations.LoadKeyStagesKey := by
  intro s key rest hs hq
  have hs1 : s.sched.tail = [.host, .host, .host] := by rw [hs]; rfl
  have hs2 : s.sched.tail.tail = [.host, .host] := by rw [hs]; rfl
  have hs3 : s.sched.tail.tail.tail = [.host] := by rw [hs]; rfl
  exact ⟨_, (run_succ (step_of_wrKeyIn (k := 0) rfl hs hq) 3).trans
    ((run_succ (step_of_wrKeyIn (k := 1) rfl hs1 rfl) 2).trans
    ((run_succ (step_of_wrKeyIn (k := 2) rfl hs2 rfl) 1).trans
    (run_succ (step_of_wrKeyIn (k := 3) rfl hs3 rfl) 0))), rfl, cat_wordAt key⟩

end Sys2Proof.Machine
end
